-- ==== Sys2Proof/Word.lean ====
section
/-! DEFINITION. The word types of the ARMv4T core and their plainest arithmetic (spec/00_scope.md R9, R10). -/

namespace Sys2Proof

/-- A 32-bit register, address or ARM opcode. -/
abbrev Word := BitVec 32

/-- A 16-bit halfword or THUMB opcode. -/
abbrev Half := BitVec 16

/-- The smallest addressable unit of memory. -/
abbrev Byte := BitVec 8

/-- A 4-bit register field of an opcode, naming R0 to R15 (R33). -/
abbrev RegNum := BitVec 4

/-- A 3-bit register field of a THUMB opcode, naming R0 to R7 (R410). -/
abbrev LowReg := BitVec 3

/-- The register a 3-bit THUMB field names. -/
def LowReg.toReg (r : LowReg) : RegNum := r.setWidth 4

end Sys2Proof
end

