-- ==== Sys2Proof/Config.lean ====
section
/-! DEFINITION. The parameters the spec leaves to the model (00_scope.md R8), the host's cost table
(20_memory.md R83) and the free values (93_implementation_defined.md section 2). -/

namespace Sys2Proof

/-- `UNPRED_POLICY` (R8, R13, D2): whether an UNPREDICTABLE case stops the model or goes on with the
behaviour its rule states. -/
inductive UnpredPolicy where
  | fault
  | implement
deriving DecidableEq, Repr

/-- `COPROC_POLICY` (R8, R400, D8). -/
inductive CoprocPolicy where
  | undefined
  | diagnostic
deriving DecidableEq, Repr

/-- `ADC_V_RULE` (R8, R235, D23). -/
inductive AdcVRule where
  | architectural
  | twoStageOr
deriving DecidableEq, Repr

/-- The width of an access (R81). -/
inductive Width where
  | byte
  | half
  | word
deriving DecidableEq, Repr

/-- The tag of an access: an opcode fetch or a data access (R81). -/
inductive AccessKind where
  | code
  | data
deriving DecidableEq, Repr

/-- The sequentiality flag of an access (R82). -/
inductive Seq where
  | nonSeq
  | seq
deriving DecidableEq, Repr

/-- One line of the host's cost function (R83): what an access costs whose address lies in
`lo .. hi` and whose width, kind and flag are these. DESIGN CHOICE (log 7). -/
structure CostEntry where
  lo : Nat
  hi : Nat
  width : Width
  kind : AccessKind
  seq : Seq
  cost : Nat
deriving DecidableEq, Repr

/-- A window of the address space in which the host's memory is not the flat reference memory (R85, R94, V4): it
is about the accesses whose address lies in `lo .. hi`. Where `answers`, a read returns what the host chooses;
where `drops`, a write is silently ignored. DESIGN CHOICE (log 6). -/
structure PortWindow where
  lo : Nat
  hi : Nat
  answers : Bool
  drops : Bool
deriving DecidableEq, Repr

/-- The named parameters of R8, the host's cost function and the windows of the host's memory. They are part of
the state so that one model covers every setting; no step changes them (log 1, 2, 6, 7). -/
structure Params where
  unpred : UnpredPolicy
  coproc : CoprocPolicy
  adcV : AdcVRule
  storePcOffset : Word
  exceptionBase : Word
  costs : List CostEntry
  windows : List PortWindow
deriving DecidableEq, Repr

/-- The values R8 gives the parameters; every access costs 1 cycle (DESIGN CHOICE, log 7) and the host's memory is
the flat reference memory of R85 (DESIGN CHOICE, log 6). -/
def Params.default : Params where
  unpred := .fault
  coproc := .undefined
  adcV := .architectural
  storePcOffset := 12
  exceptionBase := 0
  costs := []
  windows := []

/-- The value of the n-th `draw()` (R43, R371 to R378, R525, R530; 93_implementation_defined.md V2, V3,
V5, V6). It has no body: a claim holds whatever it is (log 8). -/
opaque Config.freeValue : Nat → Word

/-- What the host's memory answers to an access of a kind and width at an address in a window that answers (R85,
V4); the number is `State.draws`, which every step and every seeding of the pipeline advances, so that no two
accesses of a run share an answer. It has no body (log 6). -/
opaque Config.portAnswer : Nat → AccessKind → Word → Width → Word

end Sys2Proof
end

