-- ==== Sys2Proof/Machine/State.lean ====
section
/-! DEFINITION. The state of the core as plain data (10_state.md), the model faults (00_scope.md R14) and
the state after reset (10_state.md R51). -/

namespace Sys2Proof.Machine

/-- The UNPREDICTABLE cases of 93_implementation_defined.md section 1. -/
inductive UCase where
  | /-- ARM opcode with cond = 1111 (R187). -/ u1
  | /-- a CPSR write whose M field is no mode (R31, R40). -/ u2
  | /-- an SPSR write or restore in User or System mode (R43, R263, R283, R355). -/ u3
  | /-- R15 in a register-specified shift (R230, R260). -/ u4
  | /-- an SBZ bit not 0 or an SBO bit not 1 (R164). -/ u5
  | /-- multiply register restrictions (R377). -/ u6
  | /-- R15 in a single transfer (R318, R324). -/ u7
  | /-- load with write-back and Rd = Rn (R318). -/ u8
  | /-- store with write-back and Rd = Rn (R318). -/ u9
  | /-- halfword transfer with P = 0 and W = 1 (R319). -/ u10
  | /-- halfword access at an odd address (R90). -/ u11
  | /-- word store at a misaligned address (R89). -/ u12
  | /-- misaligned SWP address or block base (R325, R350). -/ u13
  | /-- ARM block transfer with an empty list (R350). -/ u14
  | /-- LDM with write-back and the base in the list (R352, R480). -/ u15
  | /-- user-bank block transfer with W = 1, or in User/System mode (R353, R354). -/ u16
  | /-- block transfer with Rn = 15 (R359). -/ u17
  | /-- MSR that would change T (R283). -/ u18
  | /-- BX to ARM state with bit 1 of the target set (R392, R503). -/ u19
  | /-- THUMB hi-register operation on two low registers (R438). -/ u20
  | /-- THUMB BX with H1 = 1 (R503). -/ u21
  | /-- reserved halfword-transfer encoding (R329). -/ u22
  | /-- swap register restrictions (R327). -/ u23
  | /-- MRS with Rd = 15, MSR with Rm = 15 (R280, R281). -/ u24
  | /-- an ARM-state R15 write with bits [1:0] set (R192). -/ u25
  | /-- a store into the two opcodes after the storing instruction (R97). -/ u26
  | /-- a banked-register access right after LDM(2) (R354, R579). -/ u27
  | /-- THUMB block transfer with an empty list (R477 to R480). -/ u28
deriving DecidableEq, Repr

/-- The model faults of R14: each records its reason and the address A of the instruction. None is an
architectural exception. -/
inductive Fault where
  /-- `fault Unpredictable(Uk)` (R13): raised by a meaning whose U-case applies, when the policy is
  `fault` or the case faults in both policies. Safe: the model stops where the architecture defines no
  behaviour. -/
  | unpredictable (u : UCase) (addr : Word)
  /-- `fault InvalidMode` (R31, D28): raised by `step` when CPSR.M is none of the seven modes. Safe. -/
  | invalidMode (addr : Word)
  /-- `fault CoprocessorUnimplemented` (R400): raised by the five coprocessor instructions under
  `COPROC_POLICY = diagnostic`. Safe. -/
  | coprocessorUnimplemented (addr : Word)
deriving DecidableEq, Repr

/-- Why an instruction has no meaning in the model. -/
inductive Refusal where
  /-- Raised by `exec` for an instruction that has no meaning yet; no arm raises it. Safe. -/
  | notModelled (mnemonic : String)
deriving DecidableEq, Repr

/-- The outcome of a meaning. -/
abbrev Result (σ : Type) := Host.Outcome σ Fault Refusal

/-- The seven privilege modes (R30). -/
inductive Mode where
  | user
  | fiq
  | irq
  | supervisor
  | abort
  | undefined
  | system
deriving DecidableEq, Repr

/-- Which set of banked registers is live: User and System share one (R34). -/
inductive Bank where
  | usr
  | fiq
  | irq
  | svc
  | abt
  | und
deriving DecidableEq, Repr

/-- The eight exception kinds (R520). -/
inductive ExceptionKind where
  | reset
  | undefined
  | swi
  | prefetchAbort
  | dataAbort
  | addressExceeds26Bit
  | irq
  | fiq
deriving DecidableEq, Repr

/-- A program status register (R39, R42) by its fields; `Psr.ofWord` and `Psr.toWord` give the 32-bit view
(log 19). The mode field is the raw five bits, so a PSR may hold a value that is no mode. -/
structure Psr where
  n : Bool
  z : Bool
  c : Bool
  v : Bool
  reserved : BitVec 20
  i : Bool
  f : Bool
  t : Bool
  m : BitVec 5
deriving DecidableEq, Repr, Inhabited

/-- The physical general registers (R32); `fiq` holds R8 to R14, the two-register banks R13 and R14. -/
structure RegFile where
  usr : Vector Word 15
  fiq : Vector Word 7
  irq : Vector Word 2
  svc : Vector Word 2
  abt : Vector Word 2
  und : Vector Word 2
deriving DecidableEq, Repr, Inhabited

/-- The five saved program status registers (R42). -/
structure SpsrFile where
  fiq : Psr
  irq : Psr
  svc : Psr
  abt : Psr
  und : Psr
deriving DecidableEq, Repr, Inhabited

/-- Memory: address and byte pairs, the addresses strictly rising, no entry equal to what an unlisted
address reads as (log 5, 6). -/
abbrev Mem := List Host.Cell

/-- The state of the core and of the memory it reaches. -/
structure State where
  /-- the 30 physical general registers (R32) -/
  regs : RegFile
  /-- the stored R15: the address of the next opcode to be fetched (R46) -/
  pc : Word
  /-- the current program status register (R39) -/
  cpsr : Psr
  /-- the saved program status registers (R42) -/
  spsrs : SpsrFile
  /-- the latch of the next opcode to execute (R47) -/
  decoded : Word
  /-- the latch of the opcode after it (R47) -/
  fetched : Word
  /-- the cycles of the current step (R48) -/
  cycles : Nat
  /-- the cycles of all steps (R48) -/
  totalCycles : Nat
  /-- the installed exception hook, if any (R49, R535) -/
  hook : Option Nat
  /-- the model fault record (R14, R50) -/
  faultRecord : Option Fault
  /-- the address space (R80) -/
  mem : Mem
  /-- the named parameters (R8) -/
  params : Params
  /-- the last instruction was LDM(2) (R354, R579) -/
  userBankHazard : Bool
  /-- the counter of free values, which every draw, step and seeding advances: the model's own field (log 6, 8) -/
  draws : Nat
deriving DecidableEq, Repr

/-- A PSR all of whose bits are 0. -/
def Psr.zero : Psr where
  n := false
  z := false
  c := false
  v := false
  reserved := 0
  i := false
  f := false
  t := false
  m := 0

/-- The machine right after hardware reset (R51, R570): Supervisor mode, IRQ and FIQ disabled, ARM state,
the pipeline seeded at the Reset vector of a memory that lists nothing. The registers, flags, reserved bits
and SPSRs the spec leaves a draw are 0 (DESIGN CHOICE, log 3, 4). The parameters are R8's values but for
`UNPRED_POLICY`, which takes R8's alternative `implement` (DESIGN CHOICE, log 1); `hardwareReset [] Params.default`
is the machine with R8's own. -/
def State.reset : State where
  regs := {
    usr := Vector.replicate 15 0
    fiq := Vector.replicate 7 0
    irq := Vector.replicate 2 0
    svc := Vector.replicate 2 0
    abt := Vector.replicate 2 0
    und := Vector.replicate 2 0 }
  pc := 8
  cpsr := { Psr.zero with i := true, f := true, t := false, m := 0x13 }
  spsrs := {
    fiq := Psr.zero
    irq := Psr.zero
    svc := Psr.zero
    abt := Psr.zero
    und := Psr.zero }
  decoded := 0
  fetched := 0
  cycles := 0
  totalCycles := 2
  hook := none
  faultRecord := none
  mem := []
  params := { Params.default with unpred := .implement }
  userBankHazard := false
  draws := 1

end Sys2Proof.Machine
end

