-- ==== Sys2Proof/Syntax.lean ====
section
/-! DEFINITION. The instructions: one constructor for each row of spec/opcode_table.json, in the table's order,
over the fields of the row's encoding (30_encoding.md). Fields the architecture calls SBZ or SBO are kept
(`sbz`, `sbo`), since an opcode that has them wrong is its own case (R164, log 21). -/

namespace Sys2Proof

/-- The condition field of an ARM instruction (R123, R186); `nv` is the reserved value 1111 (R187). -/
inductive Cond where
  | eq | ne | cs | cc | mi | pl | vs | vc | hi | ls | ge | lt | gt | le | al | nv
deriving DecidableEq, Repr

/-- The four shift types of the barrel shifter (R126, R220). -/
inductive ShiftKind where
  | lsl | lsr | asr | ror
deriving DecidableEq, Repr

/-- The sixteen data-processing operations (R128). -/
inductive DpOp where
  | and | eor | sub | rsb | add | adc | sbc | rsc | tst | teq | cmp | cmn | orr | mov | bic | mvn
deriving DecidableEq, Repr

/-- The four addressing modes of a block transfer (R135, R350). -/
inductive BlockMode where
  | da | ia | db | ib
deriving DecidableEq, Repr

/-- The instructions of the core. ARM constructors carry their condition `c`; `sf` is the S bit, `u` the U
bit, `w` the W bit, `p` the P bit, `rl` a register list. THUMB constructors begin with `t`. -/
inductive Instr where
  -- ARM data processing (R124 to R128; R264 to R279)
  | andImm (c : Cond) (sf : Bool) (rn rd rot : BitVec 4) (imm : Byte)
  | andShift (c : Cond) (sf : Bool) (rn rd : RegNum) (amt : BitVec 5) (k : ShiftKind) (rm : RegNum)
  | andRegShift (c : Cond) (sf : Bool) (rn rd rs : RegNum) (k : ShiftKind) (rm : RegNum)
  | eorImm (c : Cond) (sf : Bool) (rn rd rot : BitVec 4) (imm : Byte)
  | eorShift (c : Cond) (sf : Bool) (rn rd : RegNum) (amt : BitVec 5) (k : ShiftKind) (rm : RegNum)
  | eorRegShift (c : Cond) (sf : Bool) (rn rd rs : RegNum) (k : ShiftKind) (rm : RegNum)
  | subImm (c : Cond) (sf : Bool) (rn rd rot : BitVec 4) (imm : Byte)
  | subShift (c : Cond) (sf : Bool) (rn rd : RegNum) (amt : BitVec 5) (k : ShiftKind) (rm : RegNum)
  | subRegShift (c : Cond) (sf : Bool) (rn rd rs : RegNum) (k : ShiftKind) (rm : RegNum)
  | rsbImm (c : Cond) (sf : Bool) (rn rd rot : BitVec 4) (imm : Byte)
  | rsbShift (c : Cond) (sf : Bool) (rn rd : RegNum) (amt : BitVec 5) (k : ShiftKind) (rm : RegNum)
  | rsbRegShift (c : Cond) (sf : Bool) (rn rd rs : RegNum) (k : ShiftKind) (rm : RegNum)
  | addImm (c : Cond) (sf : Bool) (rn rd rot : BitVec 4) (imm : Byte)
  | addShift (c : Cond) (sf : Bool) (rn rd : RegNum) (amt : BitVec 5) (k : ShiftKind) (rm : RegNum)
  | addRegShift (c : Cond) (sf : Bool) (rn rd rs : RegNum) (k : ShiftKind) (rm : RegNum)
  | adcImm (c : Cond) (sf : Bool) (rn rd rot : BitVec 4) (imm : Byte)
  | adcShift (c : Cond) (sf : Bool) (rn rd : RegNum) (amt : BitVec 5) (k : ShiftKind) (rm : RegNum)
  | adcRegShift (c : Cond) (sf : Bool) (rn rd rs : RegNum) (k : ShiftKind) (rm : RegNum)
  | sbcImm (c : Cond) (sf : Bool) (rn rd rot : BitVec 4) (imm : Byte)
  | sbcShift (c : Cond) (sf : Bool) (rn rd : RegNum) (amt : BitVec 5) (k : ShiftKind) (rm : RegNum)
  | sbcRegShift (c : Cond) (sf : Bool) (rn rd rs : RegNum) (k : ShiftKind) (rm : RegNum)
  | rscImm (c : Cond) (sf : Bool) (rn rd rot : BitVec 4) (imm : Byte)
  | rscShift (c : Cond) (sf : Bool) (rn rd : RegNum) (amt : BitVec 5) (k : ShiftKind) (rm : RegNum)
  | rscRegShift (c : Cond) (sf : Bool) (rn rd rs : RegNum) (k : ShiftKind) (rm : RegNum)
  | tstImm (c : Cond) (rn sbz rot : BitVec 4) (imm : Byte)
  | tstShift (c : Cond) (rn sbz : RegNum) (amt : BitVec 5) (k : ShiftKind) (rm : RegNum)
  | tstRegShift (c : Cond) (rn sbz rs : RegNum) (k : ShiftKind) (rm : RegNum)
  | teqImm (c : Cond) (rn sbz rot : BitVec 4) (imm : Byte)
  | teqShift (c : Cond) (rn sbz : RegNum) (amt : BitVec 5) (k : ShiftKind) (rm : RegNum)
  | teqRegShift (c : Cond) (rn sbz rs : RegNum) (k : ShiftKind) (rm : RegNum)
  | cmpImm (c : Cond) (rn sbz rot : BitVec 4) (imm : Byte)
  | cmpShift (c : Cond) (rn sbz : RegNum) (amt : BitVec 5) (k : ShiftKind) (rm : RegNum)
  | cmpRegShift (c : Cond) (rn sbz rs : RegNum) (k : ShiftKind) (rm : RegNum)
  | cmnImm (c : Cond) (rn sbz rot : BitVec 4) (imm : Byte)
  | cmnShift (c : Cond) (rn sbz : RegNum) (amt : BitVec 5) (k : ShiftKind) (rm : RegNum)
  | cmnRegShift (c : Cond) (rn sbz rs : RegNum) (k : ShiftKind) (rm : RegNum)
  | orrImm (c : Cond) (sf : Bool) (rn rd rot : BitVec 4) (imm : Byte)
  | orrShift (c : Cond) (sf : Bool) (rn rd : RegNum) (amt : BitVec 5) (k : ShiftKind) (rm : RegNum)
  | orrRegShift (c : Cond) (sf : Bool) (rn rd rs : RegNum) (k : ShiftKind) (rm : RegNum)
  | movImm (c : Cond) (sf : Bool) (sbz rd rot : BitVec 4) (imm : Byte)
  | movShift (c : Cond) (sf : Bool) (sbz rd : RegNum) (amt : BitVec 5) (k : ShiftKind) (rm : RegNum)
  | movRegShift (c : Cond) (sf : Bool) (sbz rd rs : RegNum) (k : ShiftKind) (rm : RegNum)
  | bicImm (c : Cond) (sf : Bool) (rn rd rot : BitVec 4) (imm : Byte)
  | bicShift (c : Cond) (sf : Bool) (rn rd : RegNum) (amt : BitVec 5) (k : ShiftKind) (rm : RegNum)
  | bicRegShift (c : Cond) (sf : Bool) (rn rd rs : RegNum) (k : ShiftKind) (rm : RegNum)
  | mvnImm (c : Cond) (sf : Bool) (sbz rd rot : BitVec 4) (imm : Byte)
  | mvnShift (c : Cond) (sf : Bool) (sbz rd : RegNum) (amt : BitVec 5) (k : ShiftKind) (rm : RegNum)
  | mvnRegShift (c : Cond) (sf : Bool) (sbz rd rs : RegNum) (k : ShiftKind) (rm : RegNum)
  -- ARM PSR transfer (R129; R280 to R282)
  | mrs (c : Cond) (r : Bool) (sbo : BitVec 4) (rd : RegNum) (sbzHi sbzLo : BitVec 4)
  | msrReg (c : Cond) (r : Bool) (mask sbo sbz : BitVec 4) (rm : RegNum)
  | msrImm (c : Cond) (r : Bool) (mask sbo rot : BitVec 4) (imm : Byte)
  -- ARM multiply (R130; R371 to R376)
  | mul (c : Cond) (sf : Bool) (rd sbz rs rm : RegNum)
  | mla (c : Cond) (sf : Bool) (rd rn rs rm : RegNum)
  | umull (c : Cond) (sf : Bool) (rdHi rdLo rs rm : RegNum)
  | umlal (c : Cond) (sf : Bool) (rdHi rdLo rs rm : RegNum)
  | smull (c : Cond) (sf : Bool) (rdHi rdLo rs rm : RegNum)
  | smlal (c : Cond) (sf : Bool) (rdHi rdLo rs rm : RegNum)
  -- ARM swap, branch and exchange (R131, R132)
  | swp (c : Cond) (rn rd sbz rm : RegNum)
  | swpb (c : Cond) (rn rd sbz rm : RegNum)
  | bx (c : Cond) (sbo : BitVec 12) (rm : RegNum)
  -- ARM single data transfer (R133; R311 to R317)
  | strImmPre (c : Cond) (u w : Bool) (rn rd : RegNum) (off : BitVec 12)
  | strImmPost (c : Cond) (u : Bool) (rn rd : RegNum) (off : BitVec 12)
  | strRegPre (c : Cond) (u w : Bool) (rn rd : RegNum) (amt : BitVec 5) (k : ShiftKind) (rm : RegNum)
  | strRegPost (c : Cond) (u : Bool) (rn rd : RegNum) (amt : BitVec 5) (k : ShiftKind) (rm : RegNum)
  | strbImmPre (c : Cond) (u w : Bool) (rn rd : RegNum) (off : BitVec 12)
  | strbImmPost (c : Cond) (u : Bool) (rn rd : RegNum) (off : BitVec 12)
  | strbRegPre (c : Cond) (u w : Bool) (rn rd : RegNum) (amt : BitVec 5) (k : ShiftKind) (rm : RegNum)
  | strbRegPost (c : Cond) (u : Bool) (rn rd : RegNum) (amt : BitVec 5) (k : ShiftKind) (rm : RegNum)
  | ldrImmPre (c : Cond) (u w : Bool) (rn rd : RegNum) (off : BitVec 12)
  | ldrImmPost (c : Cond) (u : Bool) (rn rd : RegNum) (off : BitVec 12)
  | ldrRegPre (c : Cond) (u w : Bool) (rn rd : RegNum) (amt : BitVec 5) (k : ShiftKind) (rm : RegNum)
  | ldrRegPost (c : Cond) (u : Bool) (rn rd : RegNum) (amt : BitVec 5) (k : ShiftKind) (rm : RegNum)
  | ldrbImmPre (c : Cond) (u w : Bool) (rn rd : RegNum) (off : BitVec 12)
  | ldrbImmPost (c : Cond) (u : Bool) (rn rd : RegNum) (off : BitVec 12)
  | ldrbRegPre (c : Cond) (u w : Bool) (rn rd : RegNum) (amt : BitVec 5) (k : ShiftKind) (rm : RegNum)
  | ldrbRegPost (c : Cond) (u : Bool) (rn rd : RegNum) (amt : BitVec 5) (k : ShiftKind) (rm : RegNum)
  | strtImm (c : Cond) (u : Bool) (rn rd : RegNum) (off : BitVec 12)
  | strtReg (c : Cond) (u : Bool) (rn rd : RegNum) (amt : BitVec 5) (k : ShiftKind) (rm : RegNum)
  | strbtImm (c : Cond) (u : Bool) (rn rd : RegNum) (off : BitVec 12)
  | strbtReg (c : Cond) (u : Bool) (rn rd : RegNum) (amt : BitVec 5) (k : ShiftKind) (rm : RegNum)
  | ldrtImm (c : Cond) (u : Bool) (rn rd : RegNum) (off : BitVec 12)
  | ldrtReg (c : Cond) (u : Bool) (rn rd : RegNum) (amt : BitVec 5) (k : ShiftKind) (rm : RegNum)
  | ldrbtImm (c : Cond) (u : Bool) (rn rd : RegNum) (off : BitVec 12)
  | ldrbtReg (c : Cond) (u : Bool) (rn rd : RegNum) (amt : BitVec 5) (k : ShiftKind) (rm : RegNum)
  -- ARM halfword and signed data transfer (R134; R320 to R323, R329)
  | strhReg (c : Cond) (p u w : Bool) (rn rd sbz rm : RegNum)
  | strhImm (c : Cond) (p u w : Bool) (rn rd : RegNum) (hi lo : BitVec 4)
  | ldrhReg (c : Cond) (p u w : Bool) (rn rd sbz rm : RegNum)
  | ldrhImm (c : Cond) (p u w : Bool) (rn rd : RegNum) (hi lo : BitVec 4)
  | ldrsbReg (c : Cond) (p u w : Bool) (rn rd sbz rm : RegNum)
  | ldrsbImm (c : Cond) (p u w : Bool) (rn rd : RegNum) (hi lo : BitVec 4)
  | ldrshReg (c : Cond) (p u w : Bool) (rn rd sbz rm : RegNum)
  | ldrshImm (c : Cond) (p u w : Bool) (rn rd : RegNum) (hi lo : BitVec 4)
  | reservedLsh10Reg (c : Cond) (p u w : Bool) (rn rd hi lo : BitVec 4)
  | reservedLsh10Imm (c : Cond) (p u w : Bool) (rn rd hi lo : BitVec 4)
  | reservedLsh11Reg (c : Cond) (p u w : Bool) (rn rd hi lo : BitVec 4)
  | reservedLsh11Imm (c : Cond) (p u w : Bool) (rn rd hi lo : BitVec 4)
  -- ARM block data transfer (R135; R351 to R355)
  | stmda (c : Cond) (w : Bool) (rn : RegNum) (rl : BitVec 16)
  | stmia (c : Cond) (w : Bool) (rn : RegNum) (rl : BitVec 16)
  | stmdb (c : Cond) (w : Bool) (rn : RegNum) (rl : BitVec 16)
  | stmib (c : Cond) (w : Bool) (rn : RegNum) (rl : BitVec 16)
  | ldmda (c : Cond) (w : Bool) (rn : RegNum) (rl : BitVec 16)
  | ldmia (c : Cond) (w : Bool) (rn : RegNum) (rl : BitVec 16)
  | ldmdb (c : Cond) (w : Bool) (rn : RegNum) (rl : BitVec 16)
  | ldmib (c : Cond) (w : Bool) (rn : RegNum) (rl : BitVec 16)
  | stmdaUser (c : Cond) (w : Bool) (rn : RegNum) (rl : BitVec 16)
  | stmiaUser (c : Cond) (w : Bool) (rn : RegNum) (rl : BitVec 16)
  | stmdbUser (c : Cond) (w : Bool) (rn : RegNum) (rl : BitVec 16)
  | stmibUser (c : Cond) (w : Bool) (rn : RegNum) (rl : BitVec 16)
  | ldmdaUser (c : Cond) (w : Bool) (rn : RegNum) (rl : BitVec 15)
  | ldmiaUser (c : Cond) (w : Bool) (rn : RegNum) (rl : BitVec 15)
  | ldmdbUser (c : Cond) (w : Bool) (rn : RegNum) (rl : BitVec 15)
  | ldmibUser (c : Cond) (w : Bool) (rn : RegNum) (rl : BitVec 15)
  | ldmdaRet (c : Cond) (w : Bool) (rn : RegNum) (rl : BitVec 15)
  | ldmiaRet (c : Cond) (w : Bool) (rn : RegNum) (rl : BitVec 15)
  | ldmdbRet (c : Cond) (w : Bool) (rn : RegNum) (rl : BitVec 15)
  | ldmibRet (c : Cond) (w : Bool) (rn : RegNum) (rl : BitVec 15)
  -- ARM branches, software interrupt, coprocessor, undefined (R136 to R139; R390 to R405)
  | b (c : Cond) (off : BitVec 24)
  | bl (c : Cond) (off : BitVec 24)
  | swi (c : Cond) (imm : BitVec 24)
  | cdp (c : Cond) (op1 crn crd cp : BitVec 4) (op2 : BitVec 3) (crm : BitVec 4)
  | ldc (c : Cond) (p u n w : Bool) (rn : RegNum) (crd cp : BitVec 4) (off : Byte)
  | stc (c : Cond) (p u n w : Bool) (rn : RegNum) (crd cp : BitVec 4) (off : Byte)
  | mcr (c : Cond) (op1 : BitVec 3) (crn : BitVec 4) (rd : RegNum) (cp : BitVec 4) (op2 : BitVec 3) (crm : BitVec 4)
  | mrc (c : Cond) (op1 : BitVec 3) (crn : BitVec 4) (rd : RegNum) (cp : BitVec 4) (op2 : BitVec 3) (crm : BitVec 4)
  | undMul (c : Cond) (body : BitVec 28)
  | undMisc1 (c : Cond) (body : BitVec 28)
  | undMisc23 (c : Cond) (body : BitVec 28)
  | undMisc45 (c : Cond) (body : BitVec 28)
  | undMiscHigh (c : Cond) (body : BitVec 28)
  | undSwapOdd (c : Cond) (body : BitVec 28)
  | undSwapW (c : Cond) (body : BitVec 28)
  | undMisc1Row16 (c : Cond) (body : BitVec 28)
  | undSwapHigh (c : Cond) (body : BitVec 28)
  | undPsrImm (c : Cond) (body : BitVec 28)
  | undMedia (c : Cond) (body : BitVec 28)
  -- THUMB formats 1 to 5 (R141 to R145)
  | tLslImm (off : BitVec 5) (rs rd : LowReg)
  | tLsrImm (off : BitVec 5) (rs rd : LowReg)
  | tAsrImm (off : BitVec 5) (rs rd : LowReg)
  | tAddReg (rn rs rd : LowReg)
  | tSubReg (rn rs rd : LowReg)
  | tAddImm3 (off : BitVec 3) (rs rd : LowReg)
  | tSubImm3 (off : BitVec 3) (rs rd : LowReg)
  | tMovImm8 (rd : LowReg) (off : Byte)
  | tCmpImm8 (rd : LowReg) (off : Byte)
  | tAddImm8 (rd : LowReg) (off : Byte)
  | tSubImm8 (rd : LowReg) (off : Byte)
  | tAnd (rs rd : LowReg)
  | tEor (rs rd : LowReg)
  | tLsl (rs rd : LowReg)
  | tLsr (rs rd : LowReg)
  | tAsr (rs rd : LowReg)
  | tAdc (rs rd : LowReg)
  | tSbc (rs rd : LowReg)
  | tRor (rs rd : LowReg)
  | tTst (rs rd : LowReg)
  | tNeg (rs rd : LowReg)
  | tCmp (rs rd : LowReg)
  | tCmn (rs rd : LowReg)
  | tOrr (rs rd : LowReg)
  | tMul (rs rd : LowReg)
  | tBic (rs rd : LowReg)
  | tMvn (rs rd : LowReg)
  | tAddHi (h1 h2 : Bool) (rs rd : LowReg)
  | tCmpHi (h1 h2 : Bool) (rs rd : LowReg)
  | tMovHi (h1 h2 : Bool) (rs rd : LowReg)
  | tBx (h2 : Bool) (rs : LowReg) (sbz : BitVec 3)
  | tBxH1 (h2 : Bool) (rs : LowReg) (sbz : BitVec 3)
  -- THUMB formats 6 to 15 (R146 to R155)
  | tLdrPc (rd : LowReg) (word8 : Byte)
  | tStrReg (ro rb rd : LowReg)
  | tStrhReg (ro rb rd : LowReg)
  | tStrbReg (ro rb rd : LowReg)
  | tLdsbReg (ro rb rd : LowReg)
  | tLdrReg (ro rb rd : LowReg)
  | tLdrhReg (ro rb rd : LowReg)
  | tLdrbReg (ro rb rd : LowReg)
  | tLdshReg (ro rb rd : LowReg)
  | tStrImm (off : BitVec 5) (rb rd : LowReg)
  | tLdrImm (off : BitVec 5) (rb rd : LowReg)
  | tStrbImm (off : BitVec 5) (rb rd : LowReg)
  | tLdrbImm (off : BitVec 5) (rb rd : LowReg)
  | tStrhImm (off : BitVec 5) (rb rd : LowReg)
  | tLdrhImm (off : BitVec 5) (rb rd : LowReg)
  | tStrSp (rd : LowReg) (word8 : Byte)
  | tLdrSp (rd : LowReg) (word8 : Byte)
  | tAddPc (rd : LowReg) (word8 : Byte)
  | tAddSp (rd : LowReg) (word8 : Byte)
  | tIncSp (word7 : BitVec 7)
  | tDecSp (word7 : BitVec 7)
  | tPush (r : Bool) (rl : Byte)
  | tPop (r : Bool) (rl : Byte)
  | tStmia (rb : LowReg) (rl : Byte)
  | tLdmia (rb : LowReg) (rl : Byte)
  -- THUMB formats 16 to 19 and the undefined indices (R156 to R160)
  | tBeq (off : Byte)
  | tBne (off : Byte)
  | tBcs (off : Byte)
  | tBcc (off : Byte)
  | tBmi (off : Byte)
  | tBpl (off : Byte)
  | tBvs (off : Byte)
  | tBvc (off : Byte)
  | tBhi (off : Byte)
  | tBls (off : Byte)
  | tBge (off : Byte)
  | tBlt (off : Byte)
  | tBgt (off : Byte)
  | tBle (off : Byte)
  | tSwi (imm : Byte)
  | tB (off : BitVec 11)
  | tBlHigh (off : BitVec 11)
  | tBlLow (off : BitVec 11)
  | tUndB1 (bits : BitVec 8)
  | tUndB2 (bits : BitVec 9)
  | tUndB6 (bits : BitVec 9)
  | tUndB8 (bits : BitVec 10)
  | tUndBe (bits : BitVec 9)
  | tUndDe (bits : BitVec 8)
  | tUndE8 (bits : BitVec 11)
deriving DecidableEq, Repr

end Sys2Proof
end

