-- ==== Sys2Proof/Machine/Ops.lean ====
section
/-! DEFINITION. The named operations over the state: modes and status registers (10_state.md), registers, memory
(20_memory.md), cycles (70_reset_and_hazards.md R583 to R586), the pipeline (40_pipeline.md), the
UNPREDICTABLE policy (00_scope.md R13), exception entry (60_exceptions.md R530 to R535) and the return from
an exception (42_arm_data_processing.md R263). -/

namespace Sys2Proof

/-- How many bytes an access moves (R81). -/
def Width.bytes : Width → Nat
  | .byte => 1
  | .half => 2
  | .word => 4

/-- The low bytes of a value that an access of a width moves (R81). -/
def Width.low (w : Width) (v : Word) : Word :=
  match w with
  | .byte => (v.extractLsb' 0 8).setWidth 32
  | .half => (v.extractLsb' 0 16).setWidth 32
  | .word => v

/-- A line of the cost table is about this access. -/
def CostEntry.covers (e : CostEntry) (a : Word) (w : Width) (k : AccessKind) (q : Seq) : Bool :=
  decide (e.lo ≤ a.toNat) && decide (a.toNat ≤ e.hi) && (e.width == w) && (e.kind == k) && (e.seq == q)

/-- The cost of an access: the first line that covers it, else 1 cycle (R83, log 7). -/
def Params.cost (p : Params) (a : Word) (w : Width) (k : AccessKind) (q : Seq) : Nat :=
  match p.costs.find? (fun e => e.covers a w k q) with
  | some e => e.cost
  | none => 1

/-- A window is about the accesses at this address. -/
def PortWindow.covers (x : PortWindow) (a : Word) : Bool := decide (x.lo ≤ a.toNat) && decide (a.toNat ≤ x.hi)

/-- A read at an address is answered by the host (R85, log 6). -/
def Params.answers (p : Params) (a : Word) : Bool := p.windows.any (fun x => x.covers a && x.answers)

/-- A write at an address is silently ignored (R85, log 6). -/
def Params.drops (p : Params) (a : Word) : Bool := p.windows.any (fun x => x.covers a && x.drops)

/-- `ConditionPassed(cond)` (R186); the reserved NV never passes (R187). -/
def Cond.passes (c : Cond) (p : Machine.Psr) : Bool :=
  match c with
  | .eq => p.z
  | .ne => !p.z
  | .cs => p.c
  | .cc => !p.c
  | .mi => p.n
  | .pl => !p.n
  | .vs => p.v
  | .vc => !p.v
  | .hi => p.c && !p.z
  | .ls => !p.c || p.z
  | .ge => p.n == p.v
  | .lt => p.n != p.v
  | .gt => !p.z && (p.n == p.v)
  | .le => p.z || (p.n != p.v)
  | .al => true
  | .nv => false

end Sys2Proof

namespace Sys2Proof.Machine

/-! ## Modes and status registers -/

/-- CPSR.M of a mode (R30). -/
def Mode.bits : Mode → BitVec 5
  | .user => 0x10
  | .fiq => 0x11
  | .irq => 0x12
  | .supervisor => 0x13
  | .abort => 0x17
  | .undefined => 0x1B
  | .system => 0x1F

/-- The mode five bits name; `none` is the spec's `Invalid` (R30, R31). -/
def Mode.ofBits (b : BitVec 5) : Option Mode :=
  if b = 0x10 then some .user
  else if b = 0x11 then some .fiq
  else if b = 0x12 then some .irq
  else if b = 0x13 then some .supervisor
  else if b = 0x17 then some .abort
  else if b = 0x1B then some .undefined
  else if b = 0x1F then some .system
  else none

/-- The registers a mode banks (R30, R34). -/
def Mode.bank : Mode → Bank
  | .user => .usr
  | .fiq => .fiq
  | .irq => .irq
  | .supervisor => .svc
  | .abort => .abt
  | .undefined => .und
  | .system => .usr

/-- A 32-bit value as a status register (R39). -/
def Psr.ofWord (w : Word) : Psr where
  n := w.getLsbD 31
  z := w.getLsbD 30
  c := w.getLsbD 29
  v := w.getLsbD 28
  reserved := w.extractLsb' 8 20
  i := w.getLsbD 7
  f := w.getLsbD 6
  t := w.getLsbD 5
  m := w.extractLsb' 0 5

/-- The 32-bit value of a status register (R39). -/
def Psr.toWord (p : Psr) : Word :=
  BitVec.ofBool p.n ++ BitVec.ofBool p.z ++ BitVec.ofBool p.c ++ BitVec.ofBool p.v ++ p.reserved ++
    BitVec.ofBool p.i ++ BitVec.ofBool p.f ++ BitVec.ofBool p.t ++ p.m

/-- The mode of a status register, `none` where its mode field is no mode (R31). -/
def Psr.mode (p : Psr) : Option Mode := Mode.ofBits p.m

/-- The live bank; a state with an invalid mode, in which `step` faults (R31), is given the User bank
(log 17). -/
def State.bank (s : State) : Bank :=
  match s.cpsr.mode with
  | some m => m.bank
  | none => .usr

/-- The current mode is an exception mode: it has an SPSR (R43). -/
def State.hasSpsr (s : State) : Bool := s.bank != .usr

/-- The SPSR of a bank; the User bank has none and the value given for it is never used (R42, R43). -/
def SpsrFile.get (f : SpsrFile) : Bank → Psr
  | .usr => Psr.zero
  | .fiq => f.fiq
  | .irq => f.irq
  | .svc => f.svc
  | .abt => f.abt
  | .und => f.und

/-- A write of the SPSR of a bank; the User bank has none and nothing is written (R42, R43). -/
def SpsrFile.set (f : SpsrFile) (b : Bank) (p : Psr) : SpsrFile :=
  match b with
  | .usr => f
  | .fiq => { f with fiq := p }
  | .irq => { f with irq := p }
  | .svc => { f with svc := p }
  | .abt => { f with abt := p }
  | .und => { f with und := p }

/-! ## General registers -/

/-- A physical general register (R32). -/
inductive PhysReg where
  | usr (i : Fin 15)
  | fiq (i : Fin 7)
  | irq (i : Fin 2)
  | svc (i : Fin 2)
  | abt (i : Fin 2)
  | und (i : Fin 2)
deriving DecidableEq, Repr

/-- `phys(m, i)` of R35, by the bank of the mode. -/
def Bank.phys (b : Bank) (i : Fin 15) : PhysReg :=
  if i.val < 8 then .usr i
  else if h : i.val < 13 then
    match b with
    | .fiq => .fiq ⟨i.val - 8, by omega⟩
    | _ => .usr i
  else
    match b with
    | .usr => .usr i
    | .fiq => .fiq ⟨i.val - 8, by omega⟩
    | .irq => .irq ⟨i.val - 13, by omega⟩
    | .svc => .svc ⟨i.val - 13, by omega⟩
    | .abt => .abt ⟨i.val - 13, by omega⟩
    | .und => .und ⟨i.val - 13, by omega⟩

/-- The physical register a 4-bit number names in a bank; R15 is none of them (R35). -/
def Bank.reg (b : Bank) (r : RegNum) : Option PhysReg :=
  if h : r.toNat < 15 then some (b.phys ⟨r.toNat, h⟩) else none

/-- The value of a physical register. -/
def RegFile.get (f : RegFile) : PhysReg → Word
  | .usr i => f.usr[i]
  | .fiq i => f.fiq[i]
  | .irq i => f.irq[i]
  | .svc i => f.svc[i]
  | .abt i => f.abt[i]
  | .und i => f.und[i]

/-- A write of a physical register; it has no other effect (R36). -/
def RegFile.set (f : RegFile) (p : PhysReg) (v : Word) : RegFile :=
  match p with
  | .usr i => { f with usr := f.usr.set i v }
  | .fiq i => { f with fiq := f.fiq.set i v }
  | .irq i => { f with irq := f.irq.set i v }
  | .svc i => { f with svc := f.svc.set i v }
  | .abt i => { f with abt := f.abt.set i v }
  | .und i => { f with und := f.und.set i v }

/-- `x[r]` as a bank shows it; R15 reads the stored pc: A + 8 in ARM state, A + 4 in THUMB state (R35,
R184). -/
def State.readBank (s : State) (b : Bank) (r : RegNum) : Word :=
  match b.reg r with
  | some p => s.regs.get p
  | none => s.pc

/-- `x[r]` (R11, R184). -/
def State.readReg (s : State) (r : RegNum) : Word := s.readBank s.bank r

/-- `x_usr[r]` (R35). -/
def State.readUser (s : State) (r : RegNum) : Word := s.readBank .usr r

/-- `x[r] <- v` as a bank shows it; R15 is written by BranchTo alone (R11) and nothing is written here. -/
def State.writeBank (s : State) (b : Bank) (r : RegNum) (v : Word) : State :=
  match b.reg r with
  | some p => { s with regs := s.regs.set p v }
  | none => s

/-- `x[r] <- v` (R11). -/
def State.writeReg (s : State) (r : RegNum) (v : Word) : State := s.writeBank s.bank r v

/-- `x_usr[r] <- v` (R35). -/
def State.writeUser (s : State) (r : RegNum) (v : Word) : State := s.writeBank .usr r v

/-! ## The address of the executing instruction -/

/-- The size of an opcode of the current state: 4 in ARM state, 2 in THUMB state (R120). -/
def State.opSize (s : State) : Word := if s.cpsr.t then 2 else 4

/-- The access width of an opcode of the current state (R91). -/
def State.opWidth (s : State) : Width := if s.cpsr.t then .half else .word

/-- `A`, the address of the executing instruction; between steps, of the one the next step executes
(R183). -/
def State.instrAddr (s : State) : Word := s.pc - (if s.cpsr.t then 4 else 8)

/-- The value a store of R15 stores: A + STORE_PC_OFFSET (R185). -/
def State.storedPc (s : State) : Word := s.instrAddr + s.params.storePcOffset

/-- The value a store instruction stores for register r (R313, R351). -/
def State.storeValue (s : State) (r : RegNum) : Word := if r = 15 then s.storedPc else s.readReg r

/-! ## Memory -/

/-- What an address that nothing has written reads as (DESIGN CHOICE, log 5). -/
def Mem.unlisted : Byte := 0

/-- The byte at an address. -/
def Mem.read : Mem → Nat → Byte
  | [], _ => Mem.unlisted
  | c :: m, a => if c.1 = a then c.2 else Mem.read m a

/-- Memory without an entry for an address. -/
def Mem.erase : Mem → Nat → Mem
  | [], _ => []
  | c :: m, a => if c.1 = a then Mem.erase m a else c :: Mem.erase m a

/-- An entry put before the first entry of a higher address. -/
def Mem.insert : Mem → Nat → Byte → Mem
  | [], a, v => [(a, v)]
  | c :: m, a, v => if a < c.1 then (a, v) :: c :: m else c :: Mem.insert m a v

/-- A write of one byte, keeping the canonical form. -/
def Mem.write (m : Mem) (a : Nat) (v : Byte) : Mem :=
  if v = Mem.unlisted then m.erase a else (m.erase a).insert a v

/-- The canonical form from an address on: addresses rising, below 2^32 (R80), no entry that reads as an
unlisted one. -/
def Mem.wfFrom : Nat → Mem → Bool
  | _, [] => true
  | lo, c :: m => decide (lo ≤ c.1) && decide (c.1 < 2 ^ 32) && (c.2 != Mem.unlisted) && Mem.wfFrom (c.1 + 1) m

/-- The canonical form of memory. -/
def Mem.wf (m : Mem) : Bool := Mem.wfFrom 0 m

/-- The byte at a 32-bit address (R80). -/
def Mem.byteAt (m : Mem) (a : Word) : Byte := m.read a.toNat

/-- A write of the byte at a 32-bit address (R80). -/
def Mem.setByte (m : Mem) (a : Word) (v : Byte) : Mem := m.write a.toNat v

/-- The address the core presents to the port for an access of a width (R87). -/
def alignTo (w : Width) (a : Word) : Word :=
  match w with
  | .byte => a
  | .half => a &&& 0xFFFFFFFE
  | .word => a &&& 0xFFFFFFFC

/-- The value of a little-endian read, zero-extended (R81, R86). -/
def Mem.load (m : Mem) (a : Word) : Width → Word
  | .byte => (m.byteAt a).setWidth 32
  | .half => (m.byteAt (a + 1) ++ m.byteAt a).setWidth 32
  | .word => m.byteAt (a + 3) ++ m.byteAt (a + 2) ++ m.byteAt (a + 1) ++ m.byteAt a

/-- Memory after a little-endian write of the low bytes of a value (R81, R86). -/
def Mem.store (m : Mem) (a : Word) (v : Word) : Width → Mem
  | .byte => m.setByte a (v.extractLsb' 0 8)
  | .half => (m.setByte a (v.extractLsb' 0 8)).setByte (a + 1) (v.extractLsb' 8 8)
  | .word =>
    (((m.setByte a (v.extractLsb' 0 8)).setByte (a + 1) (v.extractLsb' 8 8)).setByte (a + 2)
      (v.extractLsb' 16 8)).setByte (a + 3) (v.extractLsb' 24 8)

/-! ## Cycles and accesses -/

/-- `Internal(k)` (R12): k cycles of cost 1 each (R584). -/
def State.internal (s : State) (k : Nat) : State := { s with cycles := s.cycles + k }

/-- The charge of a data access (R83). -/
def State.chargeData (s : State) (a : Word) (w : Width) (q : Seq) : State :=
  { s with cycles := s.cycles + s.params.cost a w .data q }

/-- What the port returns for a read of a kind: the bytes last written, or where the host's memory answers for the
address the value it chooses, as wide as the access (R81, R85, V4, log 6). -/
def State.portRead (s : State) (k : AccessKind) (a : Word) (w : Width) : Word :=
  if s.params.answers a then w.low (Config.portAnswer s.draws k a w) else s.mem.load a w

/-- The memory after a write at the port: it succeeds or is silently ignored (R85). -/
def State.portStore (s : State) (a : Word) (w : Width) (v : Word) : Mem :=
  if s.params.drops a then s.mem else s.mem.store a v w

/-- The value of `MemRead(a, n)` (R81). -/
def State.memRead (s : State) (a : Word) (w : Width) : Word := s.portRead .data a w

/-- `MemWrite(a, n, v)@q`: the store and its charge (R81, R83). -/
def State.memWrite (s : State) (a : Word) (w : Width) (v : Word) (q : Seq) : State :=
  { s with mem := s.portStore a w v, cycles := s.cycles + s.params.cost a w .data q }

/-! ## The pipeline -/

/-- The value of `Fetch(a, n)` in the current state, at the address the core presents (R81, R87). -/
def State.fetchAt (s : State) (a : Word) : Word := s.portRead .code (alignTo s.opWidth a) s.opWidth

/-- `fetch_next()` with the sequentiality flag `nseq` (R191). It ends an instruction, so it also ends the
follow-on of LDM(2) (R354). -/
def State.fetchNext (s : State) (q : Seq) : State :=
  { s with
    fetched := s.fetchAt s.pc
    pc := s.pc + s.opSize
    cycles := s.cycles + s.params.cost (alignTo s.opWidth s.pc) s.opWidth .code q
    userBankHazard := false }

/-- The latches and pc after `Refill(t)` (R189). -/
def State.refill (s : State) (t : Word) : State :=
  let a := alignTo s.opWidth t
  { s with
    decoded := s.fetchAt a
    fetched := s.fetchAt (a + s.opSize)
    pc := a + s.opSize + s.opSize
    userBankHazard := false }

/-- What the two fetches of `Refill(t)` cost (R189). -/
def State.refillCost (s : State) (t : Word) : Nat :=
  let a := alignTo s.opWidth t
  s.params.cost a s.opWidth .code .nonSeq + s.params.cost (a + s.opSize) s.opWidth .code .seq

/-- `BranchTo(t)`: the charge of the discarded prefetch, then the refill (R189, R84). -/
def State.branchTo (s : State) (t : Word) : State :=
  { s.refill t with
    cycles := s.cycles + s.params.cost s.pc s.opWidth .code .seq + s.refillCost t }

/-! ## UNPREDICTABLE cases -/

/-- A U-case of an instruction: whether it stops the model under both policies, and whether it holds. -/
structure Check where
  ucase : UCase
  both : Bool
  holds : Bool
deriving DecidableEq, Repr

/-- The first case that stops the model under a policy (R13; the order is the model's, log 11). -/
def firstStop (p : UnpredPolicy) : List Check → Option UCase
  | [] => none
  | k :: ks => if k.holds && (k.both || p == .fault) then some k.ucase else firstStop p ks

/-- `unpredictable(Uk)` for each case of a list, then the instruction (R13, R14). -/
def State.guarded (s : State) (ks : List Check) (r : Result State) : Result State :=
  match firstStop s.params.unpred ks with
  | some u => .fault (.unpredictable u s.instrAddr)
  | none => r

/-- A register number names a banked register in the current mode (R35): its physical register is not the
User one. -/
def State.isBanked (s : State) (r : RegNum) : Bool := s.bank.reg r != Bank.usr.reg r

/-- Case U27 for an instruction that reads or writes these registers (R354, R579, log 12). -/
def State.hazardCheck (s : State) (rs : List RegNum) : Check where
  ucase := .u27
  both := false
  holds := s.userBankHazard && rs.any s.isBanked

/-- Case U27 for an exception entry: it writes R14 of an exception mode, which is banked (R530, log 12). -/
def State.entryHazardCheck (s : State) : Check where
  ucase := .u27
  both := false
  holds := s.userBankHazard

/-- A store of `n` bytes at an address overlaps one of the two opcodes after the executing instruction
(R97). -/
def State.hitsPrefetch (s : State) (a : Word) (w : Width) : Bool :=
  let first := s.instrAddr + s.opSize
  decide ((a - first).toNat < 2 * s.opSize.toNat) || decide ((first - a).toNat < w.bytes)

/-- Case U26 of a store (R97, R578). -/
def State.prefetchCheck (s : State) (a : Word) (w : Width) : Check where
  ucase := .u26
  both := false
  holds := s.hitsPrefetch a w

/-- The two low bits of an address are not 00. -/
def misaligned4 (a : Word) : Bool := a.getLsbD 0 || a.getLsbD 1

/-! ## Conditions -/

/-- An ARM instruction under its condition: NV is U1 (R187), a failed condition only fetches (R188). -/
def State.underCond (s : State) (c : Cond) (r : Result State) : Result State :=
  s.guarded [⟨.u1, false, c == .nv⟩] (if c.passes s.cpsr then r else .next (s.fetchNext .seq))

/-! ## Free values -/

/-- The value of the next `draw()` (R43; 93_implementation_defined.md section 2, log 8). -/
def State.drawn (s : State) : Word := Config.freeValue s.draws

/-- The state after k values have been drawn. -/
def State.afterDraws (s : State) (k : Nat) : State := { s with draws := s.draws + k }

/-! ## Exceptions -/

/-- The entry mode of a kind (R521). -/
def ExceptionKind.mode : ExceptionKind → Mode
  | .reset => .supervisor
  | .undefined => .undefined
  | .swi => .supervisor
  | .prefetchAbort => .abort
  | .dataAbort => .abort
  | .addressExceeds26Bit => .supervisor
  | .irq => .irq
  | .fiq => .fiq

/-- The vector offset of a kind (R521). -/
def ExceptionKind.offset : ExceptionKind → Word
  | .reset => 0x00
  | .undefined => 0x04
  | .swi => 0x08
  | .prefetchAbort => 0x0C
  | .dataAbort => 0x10
  | .addressExceeds26Bit => 0x14
  | .irq => 0x18
  | .fiq => 0x1C

/-- A kind forces I to 1: every kind does (R521). -/
def ExceptionKind.forcesI : ExceptionKind → Bool
  | _ => true

/-- A kind forces F to 1 (R521). -/
def ExceptionKind.forcesF : ExceptionKind → Bool
  | .reset => true
  | .fiq => true
  | _ => false

/-- A kind is masked in this state: IRQ by I, FIQ by F, no other (R521, R531). -/
def ExceptionKind.masked (k : ExceptionKind) (p : Psr) : Bool :=
  match k with
  | .irq => p.i
  | .fiq => p.f
  | _ => false

/-- `EnterException(kind, lr)` up to the refill (R530): the mode, R14 and SPSR of the new mode, T, I and F.
The saved status of a Reset entry is a draw (R530, V2). -/
def State.enterMode (s : State) (k : ExceptionKind) (lr : Word) : State :=
  let old := if k = .reset then Psr.ofWord s.drawn else s.cpsr
  let s0 := if k = .reset then s.afterDraws 1 else s
  let s1 := { s0 with cpsr := { s0.cpsr with m := k.mode.bits } }
  let s2 := s1.writeBank k.mode.bank 14 lr
  { s2 with
    spsrs := s2.spsrs.set k.mode.bank old
    cpsr := { s2.cpsr with
      t := false
      i := k.forcesI || s2.cpsr.i
      f := k.forcesF || s2.cpsr.f } }

/-- The vector of a kind: EXCEPTION_BASE + offset (R521). -/
def State.vector (s : State) (k : ExceptionKind) : Word := s.params.exceptionBase + k.offset

/-- `EnterException(kind, lr)` inside a step (R530). -/
def State.enterException (s : State) (k : ExceptionKind) (lr : Word) : State :=
  (s.enterMode k lr).branchTo (s.vector k)

/-- What an exception hook did and answered: the registers and status registers it leaves, the bytes it
stored in order, and whether it consumed the exception (R535, log 9). -/
structure HookResult where
  regs : RegFile
  pc : Word
  cpsr : Psr
  spsrs : SpsrFile
  stores : List (Word × Byte)
  consumed : Bool
deriving DecidableEq, Repr, Inhabited

end Sys2Proof.Machine

namespace Sys2Proof

/-- What the hook with a number does when it is called with a kind and a return address in a state (R526,
R535). It has no body: the hook is host code with an arbitrary effect (log 9). -/
opaque Config.hookResult : Nat → Machine.ExceptionKind → Word → Machine.State → Machine.HookResult

end Sys2Proof

namespace Sys2Proof.Machine

/-- Memory after a list of byte stores. -/
def Mem.setBytes (m : Mem) : List (Word × Byte) → Mem
  | [] => m
  | st :: sts => Mem.setBytes (m.setByte st.1 st.2) sts

/-- The state a hook leaves. -/
def State.afterHook (s : State) (h : HookResult) : State :=
  { s with
    regs := h.regs
    pc := h.pc
    cpsr := h.cpsr
    spsrs := h.spsrs
    mem := s.mem.setBytes h.stores
    draws := s.draws + 1 }

/-- `raise K with return address r`, inside a step (R533): a hook is asked first; if it consumes the
exception the instruction completes without branching (R393). The entry, and the entry alone, writes a banked
register, so U27 is a case of it and not of an exception a hook consumes (R354; DEDUCED, log 12). -/
def State.raise (s : State) (k : ExceptionKind) (lr : Word) : Result State :=
  let enter := fun u : State => s.guarded [s.entryHazardCheck] (.next (u.enterException k lr))
  match s.hook with
  | none => enter s
  | some id =>
    let h := Config.hookResult id k lr s
    if h.consumed then .next ((s.afterHook h).fetchNext .seq) else enter (s.afterHook h)

/-- An undefined instruction: one internal cycle, then the Undefined exception with the address of the next
instruction (R394, R506). -/
def State.undefinedTrap (s : State) : Result State := (s.internal 1).raise .undefined (s.instrAddr + s.opSize)

/-- A software interrupt (R393, R501). -/
def State.softwareInterrupt (s : State) : Result State := s.raise .swi (s.instrAddr + s.opSize)

/-- The status an SPSR restore puts into the CPSR: the SPSR, or in User and System mode a draw (R43, R263,
R355). -/
def State.restoredPsr (s : State) : Psr :=
  if s.hasSpsr then s.spsrs.get s.bank else Psr.ofWord s.drawn

/-- The return from an exception: CPSR <- SPSR, then BranchTo in the restored state (R263, R355, R539).
`before` is the state the U-cases and the restored status are read from, `s` the state the return starts
from (they differ where registers were loaded first). -/
def State.exceptionReturn (before s : State) (target : Word) : Result State :=
  let p := before.restoredPsr
  before.guarded
    [⟨.u3, false, !before.hasSpsr⟩, ⟨.u2, true, p.mode.isNone⟩, ⟨.u25, false, !p.t && misaligned4 target⟩]
    (.next (({ s with cpsr := p }.afterDraws (if before.hasSpsr then 0 else 1)).branchTo target))

/-- A write of R15 that keeps the instruction-set state: U25 in ARM state (R192), then BranchTo. -/
def State.writePc (before s : State) (target : Word) : Result State :=
  before.guarded [⟨.u25, false, !before.cpsr.t && misaligned4 target⟩] (.next (s.branchTo target))

end Sys2Proof.Machine
end

