-- ==== Sys2Proof/Machine/Flags.lean ====
section
/-! DEFINITION. The ALU and every flag computation (41_alu_shifter.md R232 to R241; 45_arm_multiply.md R378). -/

namespace Sys2Proof.Machine

/-- A result with the carry and overflow it gives. -/
structure AluOut where
  res : Word
  c : Bool
  v : Bool
deriving DecidableEq, Repr

/-- An exact sum lies outside the signed 32-bit range. -/
def signedOverflow (x : Int) : Bool := decide (x < -(2 ^ 31)) || decide (2 ^ 31 ≤ x)

/-- `AddWithCarry(l, r, c)` (R233): the exact unsigned and signed sums, and the wrapped result. -/
def addWithCarry (l r : Word) (c : Bool) : AluOut where
  res := l + r + (BitVec.ofBool c).setWidth 32
  c := decide (2 ^ 32 ≤ l.toNat + r.toNat + c.toNat)
  v := signedOverflow (l.toInt + r.toInt + c.toNat)

/-- The overflow bit of a subtraction: `((l ^ r) & (l ^ result))[31]` (R234, R236). -/
def subOverflow (l r res : Word) : Bool := ((l ^^^ r) &&& (l ^^^ res)).msb

/-- `Sub(l, r)` (R234); carry means "no borrow". -/
def sub (l r : Word) : AluOut where
  res := l - r
  c := decide (r.toNat ≤ l.toNat)
  v := subOverflow l r (l - r)

/-- `ADC(l, r)` (R235): the carry is exact, the overflow follows `ADC_V_RULE`. -/
def adc (rule : AdcVRule) (l r : Word) (c : Bool) : AluOut :=
  let o := addWithCarry l r c
  match rule with
  | .architectural => o
  | .twoStageOr => { o with v := (addWithCarry l r false).v || (addWithCarry (l + r) 0 c).v }

/-- `SBC(l, r)` (R236). -/
def sbc (l r : Word) (c : Bool) : AluOut :=
  let notCarry := !c
  let res := l - r - (BitVec.ofBool notCarry).setWidth 32
  { res := res
    c := decide (r.toNat + notCarry.toNat ≤ l.toNat)
    v := subOverflow l r res }

/-- A data-processing operation on `l = x[Rn]` and `r` = the shifter result (R239, R240). A logical operation
gives the shifter carry-out `sc` as C and leaves V as it was; every carry input is the C of `p`, the status
at the start of the instruction (R238). -/
def dpAlu (rule : AdcVRule) (op : DpOp) (l r : Word) (sc : Bool) (p : Psr) : AluOut :=
  match op with
  | .and => ⟨l &&& r, sc, p.v⟩
  | .eor => ⟨l ^^^ r, sc, p.v⟩
  | .sub => sub l r
  | .rsb => sub r l
  | .add => addWithCarry l r false
  | .adc => adc rule l r p.c
  | .sbc => sbc l r p.c
  | .rsc => sbc r l p.c
  | .tst => ⟨l &&& r, sc, p.v⟩
  | .teq => ⟨l ^^^ r, sc, p.v⟩
  | .cmp => sub l r
  | .cmn => addWithCarry l r false
  | .orr => ⟨l ||| r, sc, p.v⟩
  | .mov => ⟨r, sc, p.v⟩
  | .bic => ⟨l &&& ~~~r, sc, p.v⟩
  | .mvn => ⟨~~~r, sc, p.v⟩

/-- N and Z from a result (R232), with given C and V. -/
def Psr.withFlags (p : Psr) (res : Word) (c v : Bool) : Psr :=
  { p with n := res.msb, z := res == 0, c := c, v := v }

/-- The flags of an ALU result (R239, R241). -/
def State.setFlags (s : State) (o : AluOut) : State := { s with cpsr := s.cpsr.withFlags o.res o.c o.v }

/-- N and Z from a result, C and V unchanged (R422, R430). -/
def State.setNZ (s : State) (res : Word) : State :=
  { s with cpsr := s.cpsr.withFlags res s.cpsr.c s.cpsr.v }

/-- N, Z and C, V unchanged: the flags of a logical operation (R239) or a shift (R411). -/
def State.setNZC (s : State) (res : Word) (c : Bool) : State :=
  { s with cpsr := s.cpsr.withFlags res c s.cpsr.v }

/-- The flags of a 32-bit multiply with S = 1: N and Z of the result, C a free value, V unchanged (R378, V5). -/
def State.setMulFlags (s : State) (res : Word) : State :=
  (s.setNZC res (s.drawn.getLsbD 0)).afterDraws 1

/-- The flags of a long multiply with S = 1: N and Z of the 64-bit result, C and V free values (R378, V6). -/
def State.setLongMulFlags (s : State) (res : BitVec 64) : State :=
  { s with
    cpsr := { s.cpsr with
      n := res.msb
      z := res == 0
      c := (Config.freeValue s.draws).getLsbD 0
      v := (Config.freeValue (s.draws + 1)).getLsbD 0 }
    draws := s.draws + 2 }

/-- All of the bits are equal. -/
def uniform {n : Nat} (x : BitVec n) : Bool := x == 0 || x == BitVec.allOnes n

/-- The multiplier cycle count `m` (R370). -/
def mulCycles (s : Word) : Nat :=
  if uniform (s.extractLsb' 8 24) then 1
  else if uniform (s.extractLsb' 16 16) then 2
  else if uniform (s.extractLsb' 24 8) then 3
  else 4

end Sys2Proof.Machine
end

