-- ==== Sys2Proof/Machine/Operands.lean ====
section
/-! DEFINITION. The operand forms: the barrel shifter (41_alu_shifter.md R220 to R230), operand2 of data processing
(42_arm_data_processing.md R260), the addresses of the single transfers (43_arm_load_store.md R310, R319) and
of the block transfers (44_arm_block_transfer.md R350), and the THUMB immediates (30_encoding.md R163). -/

namespace Sys2Proof.Machine

/-! ## The barrel shifter -/

/-- A shifter result and its carry-out. -/
structure ShiftOut where
  res : Word
  c : Bool
deriving DecidableEq, Repr

/-- The immediate rotate (R221, R125). -/
def rotateImm (rot : BitVec 4) (imm : Byte) (cin : Bool) : ShiftOut :=
  let res := (imm.setWidth 32 : Word).rotateRight (2 * rot.toNat)
  { res := res, c := if rot = 0 then cin else res.msb }

/-- Arithmetic shift right by 32 or more: 0 or all ones by bit 31 (R224, R228). -/
def signFill (value : Word) : Word := if value.msb then 0xFFFFFFFF else 0

/-- A shift by an immediate amount 0 to 31 (R222 to R225). -/
def shiftImm (k : ShiftKind) (value : Word) (amt : BitVec 5) (cin : Bool) : ShiftOut :=
  let n := amt.toNat
  match k with
  | .lsl => if n = 0 then ⟨value, cin⟩ else ⟨value <<< n, value.getLsbD (32 - n)⟩
  | .lsr => if n = 0 then ⟨0, value.msb⟩ else ⟨value >>> n, value.getLsbD (n - 1)⟩
  | .asr => if n = 0 then ⟨signFill value, value.msb⟩ else ⟨value.sshiftRight n, value.getLsbD (n - 1)⟩
  | .ror =>
    if n = 0 then ⟨BitVec.ofBool cin ++ value.extractLsb' 1 31, value.getLsbD 0⟩
    else ⟨value.rotateRight n, value.getLsbD (n - 1)⟩

/-- A shift by the low byte of a register, 0 to 255 (R226 to R230). -/
def shiftReg (k : ShiftKind) (value : Word) (amount : Byte) (cin : Bool) : ShiftOut :=
  let s := amount.toNat
  if s = 0 then ⟨value, cin⟩
  else
    match k with
    | .lsl =>
      if s < 32 then ⟨value <<< s, value.getLsbD (32 - s)⟩
      else if s = 32 then ⟨0, value.getLsbD 0⟩
      else ⟨0, false⟩
    | .lsr =>
      if s < 32 then ⟨value >>> s, value.getLsbD (s - 1)⟩
      else if s = 32 then ⟨0, value.msb⟩
      else ⟨0, false⟩
    | .asr =>
      if s < 32 then ⟨value.sshiftRight s, value.getLsbD (s - 1)⟩
      else ⟨signFill value, value.msb⟩
    | .ror =>
      let r := s % 32
      if r = 0 then ⟨value, value.msb⟩
      else ⟨value.rotateRight r, value.getLsbD (r - 1)⟩

/-! ## Operand2 of data processing -/

/-- The three forms of operand2 (R125, R126, R127). -/
inductive Operand2 where
  | imm (rot : BitVec 4) (imm : Byte)
  | shift (amt : BitVec 5) (k : ShiftKind) (rm : RegNum)
  | regShift (rs : RegNum) (k : ShiftKind) (rm : RegNum)
deriving DecidableEq, Repr

/-- The amount of a register-specified shift is the low byte of Rs (R230). -/
def State.shiftAmount (s : State) (rs : RegNum) : Byte := (s.readReg rs).extractLsb' 0 8

/-- An operand register of data processing: R15 reads A + 8, but A + 12 in the register-shift form (R184,
R185). -/
def Operand2.readReg (o : Operand2) (s : State) (r : RegNum) : Word :=
  match o with
  | .regShift _ _ _ => if r = 15 then s.pc + 4 else s.readReg r
  | _ => s.readReg r

/-- The value and the carry-out of operand2 (R260). -/
def Operand2.value (o : Operand2) (s : State) : ShiftOut :=
  match o with
  | .imm rot x => rotateImm rot x s.cpsr.c
  | .shift amt k rm => shiftImm k (o.readReg s rm) amt s.cpsr.c
  | .regShift rs k rm => shiftReg k (o.readReg s rm) (s.shiftAmount rs) s.cpsr.c

/-- The internal cycles of operand2: one in the register-shift form (R230, R260). -/
def Operand2.internalCycles : Operand2 → Nat
  | .regShift _ _ _ => 1
  | _ => 0

/-- The registers operand2 reads. -/
def Operand2.regs : Operand2 → List RegNum
  | .imm _ _ => []
  | .shift _ _ rm => [rm]
  | .regShift rs _ rm => [rs, rm]

/-- Case U4 of the register-shift form: Rs = 15 stops under both policies, R15 as Rm or as one of the other
registers the instruction names by the policy (R230, R260). -/
def Operand2.checks (o : Operand2) (named : List RegNum) : List Check :=
  match o with
  | .regShift rs _ rm => [⟨.u4, true, rs == 15⟩, ⟨.u4, false, rm == 15 || named.contains 15⟩]
  | _ => []

/-! ## Single data transfers -/

/-- The indexing of a single data transfer: P = 1 with its W bit, P = 0 with W = 0, and the T form P = 0 with
W = 1 (R310, R315, R317). -/
inductive Indexing where
  | pre (w : Bool)
  | post
  | user
deriving DecidableEq, Repr

/-- The two offset forms of a single data transfer (R133). -/
inductive Offset where
  | imm (off : BitVec 12)
  | reg (amt : BitVec 5) (k : ShiftKind) (rm : RegNum)
deriving DecidableEq, Repr

/-- The magnitude of the offset (R310, R316): the shifter carry-out is discarded. -/
def Offset.value (o : Offset) (s : State) : Word :=
  match o with
  | .imm off => off.setWidth 32
  | .reg amt k rm => (shiftImm k (s.readReg rm) amt s.cpsr.c).res

/-- The registers an offset reads. -/
def Offset.regs : Offset → List RegNum
  | .imm _ => []
  | .reg _ _ rm => [rm]

/-- Where a transfer goes: the address used, the base plus or minus the offset, and whether it is written
back (R310, R319). -/
structure Address where
  addr : Word
  offaddr : Word
  wb : Bool
deriving DecidableEq, Repr

/-- Base plus or minus offset, by the U bit; it wraps (R310, R100). -/
def offsetBase (u : Bool) (base off : Word) : Word := if u then base + off else base - off

/-- `SDT_address()` (R310). -/
def State.sdtAddress (s : State) (ix : Indexing) (u : Bool) (rn : RegNum) (o : Offset) : Address :=
  let base := s.readReg rn
  let offaddr := offsetBase u base (o.value s)
  match ix with
  | .pre w => ⟨offaddr, offaddr, w⟩
  | .post => ⟨base, offaddr, true⟩
  | .user => ⟨base, offaddr, true⟩

/-- The two offset forms of a halfword transfer (R134). -/
inductive HwOffset where
  | reg (rm : RegNum)
  | imm (hi lo : BitVec 4)
deriving DecidableEq, Repr

/-- The magnitude of a halfword offset (R319): a register offset is not shifted. -/
def HwOffset.value (o : HwOffset) (s : State) : Word :=
  match o with
  | .reg rm => s.readReg rm
  | .imm hi lo => (hi ++ lo).setWidth 32

/-- The registers a halfword offset reads. -/
def HwOffset.regs : HwOffset → List RegNum
  | .imm _ _ => []
  | .reg rm => [rm]

/-- `HW_address()` (R319); P = 0 with W = 1 is U10, checked by the meaning. -/
def State.hwAddress (s : State) (p u w : Bool) (rn : RegNum) (o : HwOffset) : Address :=
  let base := s.readReg rn
  let offaddr := offsetBase u base (o.value s)
  { addr := if p then offaddr else base, offaddr := offaddr, wb := !p || w }

/-- The base write-back of a transfer (R310, R328). -/
def State.writeBack (s : State) (rn : RegNum) (a : Address) : State :=
  if a.wb then s.writeReg rn a.offaddr else s

/-- The value of a word load: the aligned word rotated right by 8 times addr[1:0] (R88). -/
def State.loadWordRotated (s : State) (a : Word) : Word :=
  (s.memRead (alignTo .word a) .word).rotateRight (8 * (a.extractLsb' 0 2).toNat)

/-- The value of LDRH; at an odd address the aligned halfword rotated by 8 (R320, R467, U11). -/
def State.loadHalf (s : State) (a : Word) : Word :=
  if a.getLsbD 0 then (s.memRead (alignTo .half a) .half).rotateRight 8 else s.memRead a .half

/-- The value of LDRSB (R322, R466). -/
def State.loadSignedByte (s : State) (a : Word) : Word := ((s.memRead a .byte).extractLsb' 0 8).signExtend 32

/-- The value of LDRSH; at an odd address that of LDRSB (R323, R468, U11). -/
def State.loadSignedHalf (s : State) (a : Word) : Word :=
  if a.getLsbD 0 then s.loadSignedByte a
  else ((s.memRead a .half).extractLsb' 0 16).signExtend 32

/-- The width of the access LDRSH makes: a byte at an odd address (R323, U11). -/
def signedHalfWidth (a : Word) : Width := if a.getLsbD 0 then .byte else .half

/-! ## Block transfers -/

/-- The register numbers of a list in ascending order (R350). -/
def listRegs (rl : BitVec 16) : List RegNum :=
  ([0, 1, 2, 3, 4, 5, 6, 7, 8, 9, 10, 11, 12, 13, 14, 15] : List RegNum).filter (fun r => rl.getLsbD r.toNat)

/-- The registers a transfer moves: an empty ARM list moves R15 alone (R350, U14). -/
def blockRegs (rl : BitVec 16) : List RegNum := if rl = 0 then [15] else listRegs rl

/-- How far a transfer moves the base: 4 bytes a register, 0x40 for an empty ARM list (R350, U14). -/
def blockSpan (rl : BitVec 16) : Word := if rl = 0 then 0x40 else BitVec.ofNat 32 (4 * (listRegs rl).length)

end Sys2Proof.Machine

namespace Sys2Proof

/-- `start` of R350. -/
def BlockMode.start (m : BlockMode) (b span : Word) : Word :=
  match m with
  | .ia => b
  | .ib => b + 4
  | .da => b - span + 4
  | .db => b - span

/-- `newbase` of R350. -/
def BlockMode.newBase (m : BlockMode) (b span : Word) : Word :=
  match m with
  | .ia => b + span
  | .ib => b + span
  | .da => b - span
  | .db => b - span

end Sys2Proof

namespace Sys2Proof.Machine

/-- The addresses of the transfers, ascending from `start` by 4, wrapping (R350, R100). -/
def blockAddrs : Nat → Word → List Word
  | 0, _ => []
  | n + 1, a => a :: blockAddrs n (a + 4)

/-! ## Branch offsets -/

/-- `sext_26({offset24, 0b00})` (R136). -/
def branchOffset24 (off : BitVec 24) : Word := (off ++ 0b00#2).signExtend 32

/-- `sext_9({soffset8, 0})` (R156). -/
def branchOffset8 (off : Byte) : Word := (off ++ 0b0#1).signExtend 32

/-- `sext_12({offset11, 0})` (R158). -/
def branchOffset11 (off : BitVec 11) : Word := (off ++ 0b0#1).signExtend 32

/-- `sext_23({offset11, 12'b0})` (R163, R504). -/
def branchOffsetHigh (off : BitVec 11) : Word := (off ++ 0#12).signExtend 32

/-- `zext({offset11, 0})` (R163, R505). -/
def branchOffsetLow (off : BitVec 11) : Word := (off ++ 0b0#1).setWidth 32

/-! ## THUMB operands -/

/-- `word8 << 2` (R163). -/
def scaled8 (x : Byte) : Word := x.setWidth 32 <<< 2

/-- `SWord7 << 2` (R153, R163). -/
def scaled7 (x : BitVec 7) : Word := x.setWidth 32 <<< 2

/-- The base of a PC-relative THUMB form: (A + 4) with bit 1 cleared (R444, R460). -/
def State.thumbPcBase (s : State) : Word := (s.instrAddr + 4) &&& 0xFFFFFFFD

/-- A register of format 5: `{H, R}` (R145, R438). -/
def hiReg (h : Bool) (r : LowReg) : RegNum := BitVec.ofBool h ++ r

end Sys2Proof.Machine
end

