-- ==== Sys2Proof/Machine/ArmData.lean ====
section
/-! DEFINITION. ARM data processing (42_arm_data_processing.md R260 to R279). -/

namespace Sys2Proof

/-- MOV and MVN do not read Rn: the field is SBZ (R164, R277, R279). -/
def DpOp.ignoresRn (op : DpOp) : Bool := op == .mov || op == .mvn

/-- The registers among Rn and Rd that an operation names; an SBZ field names none (R260, log 25). -/
def DpOp.named (op : DpOp) (rn rd : RegNum) : List RegNum :=
  if op.ignoresRn then [rd] else [rn, rd]

end Sys2Proof

namespace Sys2Proof.Machine

/-- The ALU output of a data-processing instruction, every operand read from the start state (R260, R261). -/
def State.dpOut (s : State) (op : DpOp) (rn : RegNum) (o : Operand2) : AluOut :=
  dpAlu s.params.adcV op (o.readReg s rn) (o.value s).res (o.value s).c s.cpsr

/-- The U-cases of an operation that writes Rd, but for those of a write of R15 (R164, R260, R579). -/
def State.dpWriteChecks (s : State) (op : DpOp) (rn rd : RegNum) (o : Operand2) : List Check :=
  ⟨.u5, false, op.ignoresRn && rn != 0⟩ :: o.checks (op.named rn rd) ++
    [s.hazardCheck (op.named rn rd ++ o.regs)]

/-- `DP_write(op, S, Rn, Rd)` (R261): Rd = 15 branches (R262), with S = 1 after CPSR <- SPSR (R263). In the
register-shift form with S = 1, under `implement`, R260 says that Rd = 15 writes R15 as in R262, R261 and R263 that it
returns from an exception: the return is taken (DEDUCED, log 27). -/
def State.dpWrite (s : State) (c : Cond) (op : DpOp) (sf : Bool) (rn rd : RegNum) (o : Operand2) : Result State :=
  let out := s.dpOut op rn o
  let s1 := s.internal o.internalCycles
  s.underCond c (s.guarded (s.dpWriteChecks op rn rd o)
    (if rd = 15 then (if sf then s.exceptionReturn s1 out.res else s.writePc s1 out.res)
     else .next (((if sf then s1.setFlags out else s1).writeReg rd out.res).fetchNext .seq)))

/-- The U-cases of a test operation, whose Rd field is SBZ (R164, R260, R579). -/
def State.dpTestChecks (s : State) (rn sbz : RegNum) (o : Operand2) : List Check :=
  ⟨.u5, false, sbz != 0⟩ :: o.checks [rn] ++ [s.hazardCheck (rn :: o.regs)]

/-- `DP_test(op, Rn)` (R261): the flags alone. -/
def State.dpTest (s : State) (c : Cond) (op : DpOp) (rn sbz : RegNum) (o : Operand2) : Result State :=
  s.underCond c (s.guarded (s.dpTestChecks rn sbz o)
    (.next (((s.internal o.internalCycles).setFlags (s.dpOut op rn o)).fetchNext .seq)))

/-! ## The instructions -/

/-- AND (R264). -/
def execAndImm (c : Cond) (sf : Bool) (rn rd rot : BitVec 4) (imm : Byte) (s : State) : Result State :=
  s.dpWrite c .and sf rn rd (.imm rot imm)

/-- AND (R264). -/
def execAndShift (c : Cond) (sf : Bool) (rn rd : RegNum) (amt : BitVec 5) (k : ShiftKind) (rm : RegNum) (s : State) : Result State :=
  s.dpWrite c .and sf rn rd (.shift amt k rm)

/-- AND (R264). -/
def execAndRegShift (c : Cond) (sf : Bool) (rn rd rs : RegNum) (k : ShiftKind) (rm : RegNum) (s : State) : Result State :=
  s.dpWrite c .and sf rn rd (.regShift rs k rm)

/-- EOR (R265). -/
def execEorImm (c : Cond) (sf : Bool) (rn rd rot : BitVec 4) (imm : Byte) (s : State) : Result State :=
  s.dpWrite c .eor sf rn rd (.imm rot imm)

/-- EOR (R265). -/
def execEorShift (c : Cond) (sf : Bool) (rn rd : RegNum) (amt : BitVec 5) (k : ShiftKind) (rm : RegNum) (s : State) : Result State :=
  s.dpWrite c .eor sf rn rd (.shift amt k rm)

/-- EOR (R265). -/
def execEorRegShift (c : Cond) (sf : Bool) (rn rd rs : RegNum) (k : ShiftKind) (rm : RegNum) (s : State) : Result State :=
  s.dpWrite c .eor sf rn rd (.regShift rs k rm)

/-- SUB (R266). -/
def execSubImm (c : Cond) (sf : Bool) (rn rd rot : BitVec 4) (imm : Byte) (s : State) : Result State :=
  s.dpWrite c .sub sf rn rd (.imm rot imm)

/-- SUB (R266). -/
def execSubShift (c : Cond) (sf : Bool) (rn rd : RegNum) (amt : BitVec 5) (k : ShiftKind) (rm : RegNum) (s : State) : Result State :=
  s.dpWrite c .sub sf rn rd (.shift amt k rm)

/-- SUB (R266). -/
def execSubRegShift (c : Cond) (sf : Bool) (rn rd rs : RegNum) (k : ShiftKind) (rm : RegNum) (s : State) : Result State :=
  s.dpWrite c .sub sf rn rd (.regShift rs k rm)

/-- RSB (R267). -/
def execRsbImm (c : Cond) (sf : Bool) (rn rd rot : BitVec 4) (imm : Byte) (s : State) : Result State :=
  s.dpWrite c .rsb sf rn rd (.imm rot imm)

/-- RSB (R267). -/
def execRsbShift (c : Cond) (sf : Bool) (rn rd : RegNum) (amt : BitVec 5) (k : ShiftKind) (rm : RegNum) (s : State) : Result State :=
  s.dpWrite c .rsb sf rn rd (.shift amt k rm)

/-- RSB (R267). -/
def execRsbRegShift (c : Cond) (sf : Bool) (rn rd rs : RegNum) (k : ShiftKind) (rm : RegNum) (s : State) : Result State :=
  s.dpWrite c .rsb sf rn rd (.regShift rs k rm)

/-- ADD (R268). -/
def execAddImm (c : Cond) (sf : Bool) (rn rd rot : BitVec 4) (imm : Byte) (s : State) : Result State :=
  s.dpWrite c .add sf rn rd (.imm rot imm)

/-- ADD (R268). -/
def execAddShift (c : Cond) (sf : Bool) (rn rd : RegNum) (amt : BitVec 5) (k : ShiftKind) (rm : RegNum) (s : State) : Result State :=
  s.dpWrite c .add sf rn rd (.shift amt k rm)

/-- ADD (R268). -/
def execAddRegShift (c : Cond) (sf : Bool) (rn rd rs : RegNum) (k : ShiftKind) (rm : RegNum) (s : State) : Result State :=
  s.dpWrite c .add sf rn rd (.regShift rs k rm)

/-- ADC (R269). -/
def execAdcImm (c : Cond) (sf : Bool) (rn rd rot : BitVec 4) (imm : Byte) (s : State) : Result State :=
  s.dpWrite c .adc sf rn rd (.imm rot imm)

/-- ADC (R269). -/
def execAdcShift (c : Cond) (sf : Bool) (rn rd : RegNum) (amt : BitVec 5) (k : ShiftKind) (rm : RegNum) (s : State) : Result State :=
  s.dpWrite c .adc sf rn rd (.shift amt k rm)

/-- ADC (R269). -/
def execAdcRegShift (c : Cond) (sf : Bool) (rn rd rs : RegNum) (k : ShiftKind) (rm : RegNum) (s : State) : Result State :=
  s.dpWrite c .adc sf rn rd (.regShift rs k rm)

/-- SBC (R270). -/
def execSbcImm (c : Cond) (sf : Bool) (rn rd rot : BitVec 4) (imm : Byte) (s : State) : Result State :=
  s.dpWrite c .sbc sf rn rd (.imm rot imm)

/-- SBC (R270). -/
def execSbcShift (c : Cond) (sf : Bool) (rn rd : RegNum) (amt : BitVec 5) (k : ShiftKind) (rm : RegNum) (s : State) : Result State :=
  s.dpWrite c .sbc sf rn rd (.shift amt k rm)

/-- SBC (R270). -/
def execSbcRegShift (c : Cond) (sf : Bool) (rn rd rs : RegNum) (k : ShiftKind) (rm : RegNum) (s : State) : Result State :=
  s.dpWrite c .sbc sf rn rd (.regShift rs k rm)

/-- RSC (R271). -/
def execRscImm (c : Cond) (sf : Bool) (rn rd rot : BitVec 4) (imm : Byte) (s : State) : Result State :=
  s.dpWrite c .rsc sf rn rd (.imm rot imm)

/-- RSC (R271). -/
def execRscShift (c : Cond) (sf : Bool) (rn rd : RegNum) (amt : BitVec 5) (k : ShiftKind) (rm : RegNum) (s : State) : Result State :=
  s.dpWrite c .rsc sf rn rd (.shift amt k rm)

/-- RSC (R271). -/
def execRscRegShift (c : Cond) (sf : Bool) (rn rd rs : RegNum) (k : ShiftKind) (rm : RegNum) (s : State) : Result State :=
  s.dpWrite c .rsc sf rn rd (.regShift rs k rm)

/-- TST (R272). -/
def execTstImm (c : Cond) (rn sbz rot : BitVec 4) (imm : Byte) (s : State) : Result State :=
  s.dpTest c .tst rn sbz (.imm rot imm)

/-- TST (R272). -/
def execTstShift (c : Cond) (rn sbz : RegNum) (amt : BitVec 5) (k : ShiftKind) (rm : RegNum) (s : State) : Result State :=
  s.dpTest c .tst rn sbz (.shift amt k rm)

/-- TST (R272). -/
def execTstRegShift (c : Cond) (rn sbz rs : RegNum) (k : ShiftKind) (rm : RegNum) (s : State) : Result State :=
  s.dpTest c .tst rn sbz (.regShift rs k rm)

/-- TEQ (R273). -/
def execTeqImm (c : Cond) (rn sbz rot : BitVec 4) (imm : Byte) (s : State) : Result State :=
  s.dpTest c .teq rn sbz (.imm rot imm)

/-- TEQ (R273). -/
def execTeqShift (c : Cond) (rn sbz : RegNum) (amt : BitVec 5) (k : ShiftKind) (rm : RegNum) (s : State) : Result State :=
  s.dpTest c .teq rn sbz (.shift amt k rm)

/-- TEQ (R273). -/
def execTeqRegShift (c : Cond) (rn sbz rs : RegNum) (k : ShiftKind) (rm : RegNum) (s : State) : Result State :=
  s.dpTest c .teq rn sbz (.regShift rs k rm)

/-- CMP (R274). -/
def execCmpImm (c : Cond) (rn sbz rot : BitVec 4) (imm : Byte) (s : State) : Result State :=
  s.dpTest c .cmp rn sbz (.imm rot imm)

/-- CMP (R274). -/
def execCmpShift (c : Cond) (rn sbz : RegNum) (amt : BitVec 5) (k : ShiftKind) (rm : RegNum) (s : State) : Result State :=
  s.dpTest c .cmp rn sbz (.shift amt k rm)

/-- CMP (R274). -/
def execCmpRegShift (c : Cond) (rn sbz rs : RegNum) (k : ShiftKind) (rm : RegNum) (s : State) : Result State :=
  s.dpTest c .cmp rn sbz (.regShift rs k rm)

/-- CMN (R275). -/
def execCmnImm (c : Cond) (rn sbz rot : BitVec 4) (imm : Byte) (s : State) : Result State :=
  s.dpTest c .cmn rn sbz (.imm rot imm)

/-- CMN (R275). -/
def execCmnShift (c : Cond) (rn sbz : RegNum) (amt : BitVec 5) (k : ShiftKind) (rm : RegNum) (s : State) : Result State :=
  s.dpTest c .cmn rn sbz (.shift amt k rm)

/-- CMN (R275). -/
def execCmnRegShift (c : Cond) (rn sbz rs : RegNum) (k : ShiftKind) (rm : RegNum) (s : State) : Result State :=
  s.dpTest c .cmn rn sbz (.regShift rs k rm)

/-- ORR (R276). -/
def execOrrImm (c : Cond) (sf : Bool) (rn rd rot : BitVec 4) (imm : Byte) (s : State) : Result State :=
  s.dpWrite c .orr sf rn rd (.imm rot imm)

/-- ORR (R276). -/
def execOrrShift (c : Cond) (sf : Bool) (rn rd : RegNum) (amt : BitVec 5) (k : ShiftKind) (rm : RegNum) (s : State) : Result State :=
  s.dpWrite c .orr sf rn rd (.shift amt k rm)

/-- ORR (R276). -/
def execOrrRegShift (c : Cond) (sf : Bool) (rn rd rs : RegNum) (k : ShiftKind) (rm : RegNum) (s : State) : Result State :=
  s.dpWrite c .orr sf rn rd (.regShift rs k rm)

/-- MOV (R277). -/
def execMovImm (c : Cond) (sf : Bool) (sbz rd rot : BitVec 4) (imm : Byte) (s : State) : Result State :=
  s.dpWrite c .mov sf sbz rd (.imm rot imm)

/-- MOV (R277). -/
def execMovShift (c : Cond) (sf : Bool) (sbz rd : RegNum) (amt : BitVec 5) (k : ShiftKind) (rm : RegNum) (s : State) : Result State :=
  s.dpWrite c .mov sf sbz rd (.shift amt k rm)

/-- MOV (R277). -/
def execMovRegShift (c : Cond) (sf : Bool) (sbz rd rs : RegNum) (k : ShiftKind) (rm : RegNum) (s : State) : Result State :=
  s.dpWrite c .mov sf sbz rd (.regShift rs k rm)

/-- BIC (R278). -/
def execBicImm (c : Cond) (sf : Bool) (rn rd rot : BitVec 4) (imm : Byte) (s : State) : Result State :=
  s.dpWrite c .bic sf rn rd (.imm rot imm)

/-- BIC (R278). -/
def execBicShift (c : Cond) (sf : Bool) (rn rd : RegNum) (amt : BitVec 5) (k : ShiftKind) (rm : RegNum) (s : State) : Result State :=
  s.dpWrite c .bic sf rn rd (.shift amt k rm)

/-- BIC (R278). -/
def execBicRegShift (c : Cond) (sf : Bool) (rn rd rs : RegNum) (k : ShiftKind) (rm : RegNum) (s : State) : Result State :=
  s.dpWrite c .bic sf rn rd (.regShift rs k rm)

/-- MVN (R279). -/
def execMvnImm (c : Cond) (sf : Bool) (sbz rd rot : BitVec 4) (imm : Byte) (s : State) : Result State :=
  s.dpWrite c .mvn sf sbz rd (.imm rot imm)

/-- MVN (R279). -/
def execMvnShift (c : Cond) (sf : Bool) (sbz rd : RegNum) (amt : BitVec 5) (k : ShiftKind) (rm : RegNum) (s : State) : Result State :=
  s.dpWrite c .mvn sf sbz rd (.shift amt k rm)

/-- MVN (R279). -/
def execMvnRegShift (c : Cond) (sf : Bool) (sbz rd rs : RegNum) (k : ShiftKind) (rm : RegNum) (s : State) : Result State :=
  s.dpWrite c .mvn sf sbz rd (.regShift rs k rm)

end Sys2Proof.Machine
end

