-- ==== Sys2Proof/Machine/BlockTransfer.lean ====
section
/-! DEFINITION. ARM block data transfer (44_arm_block_transfer.md R350 to R359); the transfers are shared with
PUSH, POP, STMIA and LDMIA of THUMB (48_thumb_load_store.md R477 to R480). -/

namespace Sys2Proof.Machine

/-- The base write-back of a block transfer, made after the first transfer (R351, R357). -/
def State.blockBase (s : State) : Option (RegNum × Word) → State
  | none => s
  | some p => s.writeReg p.1 p.2

/-- The value STM stores for a register of a bank (R351, R353). -/
def State.blockValue (s : State) (b : Bank) (r : RegNum) : Word :=
  if r = 15 then s.storedPc else s.readBank b r

/-- The transfers of STM in order, each register read at its own transfer; `q` is the flag of the first access,
`wb` the write-back after it (R351, R357). -/
def State.storeList (s : State) (b : Bank) (q : Seq) (wb : Option (RegNum × Word)) :
    List (RegNum × Word) → State
  | [] => s
  | t :: ts =>
    State.storeList ((s.memWrite (alignTo .word t.2) .word (s.blockValue b t.1) q).blockBase wb) b .seq none ts

/-- The transfers of LDM in order; each load writes its register after the write-back; R15 is not written here
(R352). -/
def State.loadList (s : State) (b : Bank) (q : Seq) (wb : Option (RegNum × Word)) :
    List (RegNum × Word) → State
  | [] => s
  | t :: ts =>
    State.loadList (((s.chargeData (alignTo .word t.2) .word q).blockBase wb).writeBank b t.1
      (s.memRead (alignTo .word t.2) .word)) b .seq none ts

/-- The registers of a transfer with their addresses (R350). -/
def blockPairs (rl : BitVec 16) (start : Word) : List (RegNum × Word) :=
  (blockRegs rl).zip (blockAddrs (blockRegs rl).length start)

/-- The value loaded for R15: the last transfer (R350, R352). -/
def State.blockPc (s : State) (rl : BitVec 16) (start : Word) : Word :=
  s.memRead (alignTo .word (start + 4 * BitVec.ofNat 32 ((blockRegs rl).length - 1))) .word

/-- `start` of a block transfer in a state (R350). -/
def State.blockStart (s : State) (m : BlockMode) (rn : RegNum) (rl : BitVec 16) : Word :=
  m.start (s.readReg rn) (blockSpan rl)

/-- `newbase` of a block transfer in a state, with the base it is for, where there is a write-back (R350). -/
def State.blockWb (s : State) (m : BlockMode) (w : Bool) (rn : RegNum) (rl : BitVec 16) :
    Option (RegNum × Word) :=
  if w then some (rn, m.newBase (s.readReg rn) (blockSpan rl)) else none

/-- A block store up to its end (R351). -/
def State.blockStore (s : State) (b : Bank) (m : BlockMode) (w : Bool) (rn : RegNum) (rl : BitVec 16) : State :=
  (s.storeList b .nonSeq (s.blockWb m w rn rl) (blockPairs rl (s.blockStart m rn rl))).fetchNext .nonSeq

/-- A block load up to and including its internal cycle (R352). -/
def State.blockLoad (s : State) (b : Bank) (m : BlockMode) (w : Bool) (rn : RegNum) (rl : BitVec 16) : State :=
  (s.loadList b .nonSeq (s.blockWb m w rn rl) (blockPairs rl (s.blockStart m rn rl))).internal 1

/-- Case U26 for every word of a block store (R97). -/
def State.blockPrefetchCheck (s : State) (m : BlockMode) (rn : RegNum) (rl : BitVec 16) : Check where
  ucase := .u26
  both := false
  holds := (blockPairs rl (s.blockStart m rn rl)).any (fun t => s.hitsPrefetch (alignTo .word t.2) .word)

/-- The base is in the list of a load with write-back (R352, R480). -/
def baseInList (w : Bool) (rn : RegNum) (rl : BitVec 16) : Check := ⟨.u15, false, w && rl.getLsbD rn.toNat⟩

/-- The restrictions every ARM block transfer has (R350, R359). -/
def State.blockChecks (s : State) (rn : RegNum) (rl : BitVec 16) : List Check :=
  [⟨.u17, true, rn == 15⟩, ⟨.u13, false, misaligned4 (s.readReg rn)⟩, ⟨.u14, false, rl == 0⟩]

/-- The restrictions of the user-bank forms (R353, R354). -/
def State.userBankChecks (s : State) (w : Bool) : List Check :=
  [⟨.u16, true, w⟩, ⟨.u16, false, !s.hasSpsr⟩]

/-- STM, form 1 (R351). -/
def State.stm (s : State) (c : Cond) (m : BlockMode) (w : Bool) (rn : RegNum) (rl : BitVec 16) : Result State :=
  s.underCond c (s.guarded
    (s.blockChecks rn rl ++ [s.hazardCheck (rn :: blockRegs rl), s.blockPrefetchCheck m rn rl])
    (.next (s.blockStore s.bank m w rn rl)))

/-- STM, form 2, of the User registers (R353). -/
def State.stmUser (s : State) (c : Cond) (m : BlockMode) (w : Bool) (rn : RegNum) (rl : BitVec 16) :
    Result State :=
  s.underCond c (s.guarded
    (s.blockChecks rn rl ++ s.userBankChecks w ++ [s.hazardCheck [rn], s.blockPrefetchCheck m rn rl])
    (.next (s.blockStore .usr m false rn rl)))

/-- LDM, form 1 (R352). -/
def State.ldm (s : State) (c : Cond) (m : BlockMode) (w : Bool) (rn : RegNum) (rl : BitVec 16) : Result State :=
  let s1 := s.blockLoad s.bank m w rn rl
  s.underCond c (s.guarded
    (s.blockChecks rn rl ++ [baseInList w rn rl, s.hazardCheck (rn :: blockRegs rl)])
    (if (blockRegs rl).contains 15 then s.writePc s1 (s.blockPc rl (s.blockStart m rn rl))
     else .next (s1.fetchNext .seq)))

/-- LDM, form 2, of the User registers (R354); an empty list transfers R15 alone (R350, log 18). -/
def State.ldmUser (s : State) (c : Cond) (m : BlockMode) (w : Bool) (rn : RegNum) (rl : BitVec 15) :
    Result State :=
  let rl16 := rl.setWidth 16
  let s1 := s.blockLoad .usr m false rn rl16
  s.underCond c (s.guarded
    (s.blockChecks rn rl16 ++ s.userBankChecks w ++ [s.hazardCheck [rn]])
    (if rl = 0 then s.writePc s1 (s.blockPc rl16 (s.blockStart m rn rl16))
     else .next { s1.fetchNext .seq with userBankHazard := true }))

/-- The list of LDM, form 3: R15 and the fifteen others (R355). -/
def withPc (rl : BitVec 15) : BitVec 16 := 1#1 ++ rl

/-- LDM, form 3, the exception return (R355). -/
def State.ldmRet (s : State) (c : Cond) (m : BlockMode) (w : Bool) (rn : RegNum) (rl : BitVec 15) :
    Result State :=
  s.underCond c (s.guarded
    (s.blockChecks rn (withPc rl) ++ [baseInList w rn (withPc rl), s.hazardCheck (rn :: blockRegs (withPc rl))])
    (s.exceptionReturn (s.blockLoad s.bank m w rn (withPc rl))
      (s.blockPc (withPc rl) (s.blockStart m rn (withPc rl)))))

/-! ## The instructions -/

/-- STMDA (R351). -/
def execStmda (c : Cond) (w : Bool) (rn : RegNum) (rl : BitVec 16) (s : State) : Result State := s.stm c .da w rn rl

/-- STMIA (R351). -/
def execStmia (c : Cond) (w : Bool) (rn : RegNum) (rl : BitVec 16) (s : State) : Result State := s.stm c .ia w rn rl

/-- STMDB (R351). -/
def execStmdb (c : Cond) (w : Bool) (rn : RegNum) (rl : BitVec 16) (s : State) : Result State := s.stm c .db w rn rl

/-- STMIB (R351). -/
def execStmib (c : Cond) (w : Bool) (rn : RegNum) (rl : BitVec 16) (s : State) : Result State := s.stm c .ib w rn rl

/-- LDMDA (R352). -/
def execLdmda (c : Cond) (w : Bool) (rn : RegNum) (rl : BitVec 16) (s : State) : Result State := s.ldm c .da w rn rl

/-- LDMIA (R352). -/
def execLdmia (c : Cond) (w : Bool) (rn : RegNum) (rl : BitVec 16) (s : State) : Result State := s.ldm c .ia w rn rl

/-- LDMDB (R352). -/
def execLdmdb (c : Cond) (w : Bool) (rn : RegNum) (rl : BitVec 16) (s : State) : Result State := s.ldm c .db w rn rl

/-- LDMIB (R352). -/
def execLdmib (c : Cond) (w : Bool) (rn : RegNum) (rl : BitVec 16) (s : State) : Result State := s.ldm c .ib w rn rl

/-- STMDA(2) (R353). -/
def execStmdaUser (c : Cond) (w : Bool) (rn : RegNum) (rl : BitVec 16) (s : State) : Result State :=
  s.stmUser c .da w rn rl

/-- STMIA(2) (R353). -/
def execStmiaUser (c : Cond) (w : Bool) (rn : RegNum) (rl : BitVec 16) (s : State) : Result State :=
  s.stmUser c .ia w rn rl

/-- STMDB(2) (R353). -/
def execStmdbUser (c : Cond) (w : Bool) (rn : RegNum) (rl : BitVec 16) (s : State) : Result State :=
  s.stmUser c .db w rn rl

/-- STMIB(2) (R353). -/
def execStmibUser (c : Cond) (w : Bool) (rn : RegNum) (rl : BitVec 16) (s : State) : Result State :=
  s.stmUser c .ib w rn rl

/-- LDMDA(2) (R354). -/
def execLdmdaUser (c : Cond) (w : Bool) (rn : RegNum) (rl : BitVec 15) (s : State) : Result State :=
  s.ldmUser c .da w rn rl

/-- LDMIA(2) (R354). -/
def execLdmiaUser (c : Cond) (w : Bool) (rn : RegNum) (rl : BitVec 15) (s : State) : Result State :=
  s.ldmUser c .ia w rn rl

/-- LDMDB(2) (R354). -/
def execLdmdbUser (c : Cond) (w : Bool) (rn : RegNum) (rl : BitVec 15) (s : State) : Result State :=
  s.ldmUser c .db w rn rl

/-- LDMIB(2) (R354). -/
def execLdmibUser (c : Cond) (w : Bool) (rn : RegNum) (rl : BitVec 15) (s : State) : Result State :=
  s.ldmUser c .ib w rn rl

/-- LDMDA(3) (R355). -/
def execLdmdaRet (c : Cond) (w : Bool) (rn : RegNum) (rl : BitVec 15) (s : State) : Result State :=
  s.ldmRet c .da w rn rl

/-- LDMIA(3) (R355). -/
def execLdmiaRet (c : Cond) (w : Bool) (rn : RegNum) (rl : BitVec 15) (s : State) : Result State :=
  s.ldmRet c .ia w rn rl

/-- LDMDB(3) (R355). -/
def execLdmdbRet (c : Cond) (w : Bool) (rn : RegNum) (rl : BitVec 15) (s : State) : Result State :=
  s.ldmRet c .db w rn rl

/-- LDMIB(3) (R355). -/
def execLdmibRet (c : Cond) (w : Bool) (rn : RegNum) (rl : BitVec 15) (s : State) : Result State :=
  s.ldmRet c .ib w rn rl

end Sys2Proof.Machine
end

