-- ==== Sys2Proof/Machine/BranchSystem.lean ====
section
/-! DEFINITION. ARM branches, SWI, undefined and coprocessor instructions (46_arm_branch_system.md R390 to R405). -/

namespace Sys2Proof.Machine

/-- B (R390). -/
def State.branch (s : State) (c : Cond) (off : BitVec 24) : Result State :=
  s.underCond c (.next (s.branchTo (s.readReg 15 + branchOffset24 off)))

/-- BL (R391). -/
def State.branchLink (s : State) (c : Cond) (off : BitVec 24) : Result State :=
  s.underCond c (s.guarded [s.hazardCheck [14]]
    (.next ((s.writeReg 14 (s.instrAddr + 4)).branchTo (s.readReg 15 + branchOffset24 off))))

/-- CPSR.T <- a bit. -/
def State.setT (s : State) (t : Bool) : State := { s with cpsr := { s.cpsr with t := t } }

/-- Case U19 of a BX target (R392, R503). -/
def bxCheck (t : Word) : Check := ⟨.u19, false, !t.getLsbD 0 && t.getLsbD 1⟩

/-- The state BX leaves: CPSR.T <- t[0], then BranchTo (R392, R503). -/
def State.exchange (s : State) (t : Word) : State := (s.setT (t.getLsbD 0)).branchTo t

/-- BX (R392). -/
def State.branchExchange (s : State) (c : Cond) (sbo : BitVec 12) (rm : RegNum) : Result State :=
  s.underCond c (s.guarded [⟨.u5, false, sbo != 0xFFF⟩, s.hazardCheck [rm], bxCheck (s.readReg rm)]
    (.next (s.exchange (s.readReg rm))))

/-- A coprocessor instruction with no coprocessor attached (R400). -/
def State.coprocessor (s : State) (c : Cond) : Result State :=
  s.underCond c
    (match s.params.coproc with
     | .undefined => s.undefinedTrap
     | .diagnostic => .fault (.coprocessorUnimplemented s.instrAddr))

/-! ## The instructions -/

/-- BX (R392). -/
def execBx (c : Cond) (sbo : BitVec 12) (rm : RegNum) (s : State) : Result State := s.branchExchange c sbo rm

/-- B (R390). -/
def execB (c : Cond) (off : BitVec 24) (s : State) : Result State := s.branch c off

/-- BL (R391). -/
def execBl (c : Cond) (off : BitVec 24) (s : State) : Result State := s.branchLink c off

/-- SWI (R393). -/
def execSwi (c : Cond) (_imm : BitVec 24) (s : State) : Result State := s.underCond c s.softwareInterrupt

/-- CDP (R401). -/
def execCdp (c : Cond) (_op1 _crn _crd _cp : BitVec 4) (_op2 : BitVec 3) (_crm : BitVec 4) (s : State) : Result State :=
  s.coprocessor c

/-- LDC (R402). -/
def execLdc (c : Cond) (_p _u _n _w : Bool) (_rn : RegNum) (_crd _cp : BitVec 4) (_off : Byte) (s : State) : Result State :=
  s.coprocessor c

/-- STC (R403). -/
def execStc (c : Cond) (_p _u _n _w : Bool) (_rn : RegNum) (_crd _cp : BitVec 4) (_off : Byte) (s : State) : Result State :=
  s.coprocessor c

/-- MCR (R404). -/
def execMcr (c : Cond) (_op1 : BitVec 3) (_crn : BitVec 4) (_rd : RegNum) (_cp : BitVec 4) (_op2 : BitVec 3) (_crm : BitVec 4) (s : State) : Result State :=
  s.coprocessor c

/-- MRC (R405). -/
def execMrc (c : Cond) (_op1 : BitVec 3) (_crn : BitVec 4) (_rd : RegNum) (_cp : BitVec 4) (_op2 : BitVec 3) (_crm : BitVec 4) (s : State) : Result State :=
  s.coprocessor c

/-- UND (R394). -/
def execUndMul (c : Cond) (_body : BitVec 28) (s : State) : Result State := s.underCond c s.undefinedTrap

/-- UND (R394). -/
def execUndMisc1 (c : Cond) (_body : BitVec 28) (s : State) : Result State := s.underCond c s.undefinedTrap

/-- UND (R394). -/
def execUndMisc23 (c : Cond) (_body : BitVec 28) (s : State) : Result State := s.underCond c s.undefinedTrap

/-- UND (R394). -/
def execUndMisc45 (c : Cond) (_body : BitVec 28) (s : State) : Result State := s.underCond c s.undefinedTrap

/-- UND (R394). -/
def execUndMiscHigh (c : Cond) (_body : BitVec 28) (s : State) : Result State := s.underCond c s.undefinedTrap

/-- UND (R394). -/
def execUndSwapOdd (c : Cond) (_body : BitVec 28) (s : State) : Result State := s.underCond c s.undefinedTrap

/-- UND (R394). -/
def execUndSwapW (c : Cond) (_body : BitVec 28) (s : State) : Result State := s.underCond c s.undefinedTrap

/-- UND (R394). -/
def execUndMisc1Row16 (c : Cond) (_body : BitVec 28) (s : State) : Result State := s.underCond c s.undefinedTrap

/-- UND (R394). -/
def execUndSwapHigh (c : Cond) (_body : BitVec 28) (s : State) : Result State := s.underCond c s.undefinedTrap

/-- UND (R394). -/
def execUndPsrImm (c : Cond) (_body : BitVec 28) (s : State) : Result State := s.underCond c s.undefinedTrap

/-- UND (R394). -/
def execUndMedia (c : Cond) (_body : BitVec 28) (s : State) : Result State := s.underCond c s.undefinedTrap

end Sys2Proof.Machine
end

