-- ==== Sys2Proof/Machine/SingleTransfer.lean ====
section
/-! DEFINITION. ARM single data transfer (43_arm_load_store.md R310 to R318); the load and store tails are shared
with the halfword and THUMB transfers. -/

namespace Sys2Proof.Machine

/-- A load up to the write of Rd: the data access at `ea`, one internal cycle, the base write-back (R311, R328). -/
def State.loadTail (s : State) (ea : Word) (w : Width) (rn : RegNum) (a : Address) : State :=
  ((s.chargeData ea w .nonSeq).internal 1).writeBack rn a

/-- A store: the data access at `ea`, the base write-back, and a non-sequential fetch (R313, R328). -/
def State.storeTail (s : State) (ea : Word) (w : Width) (v : Word) (rn : RegNum) (a : Address) : State :=
  ((s.memWrite ea w v .nonSeq).writeBack rn a).fetchNext .nonSeq

/-- The register restrictions a single data transfer has in every form (R318). -/
def sdtChecks (rn : RegNum) (o : Offset) (a : Address) : List Check :=
  [⟨.u7, true, a.wb && rn == 15⟩, ⟨.u7, true, o.regs.contains 15⟩]

/-- LDR (R311); LDRT is its post-indexed form (R317). -/
def State.ldr (s : State) (c : Cond) (ix : Indexing) (u : Bool) (rn rd : RegNum) (o : Offset) : Result State :=
  let a := s.sdtAddress ix u rn o
  let s1 := s.loadTail (alignTo .word a.addr) .word rn a
  let data := s.loadWordRotated a.addr
  s.underCond c (s.guarded
    (sdtChecks rn o a ++ [⟨.u8, false, a.wb && rd == rn⟩, s.hazardCheck (rn :: rd :: o.regs)])
    (if rd = 15 then s.writePc s1 data else .next ((s1.writeReg rd data).fetchNext .seq)))

/-- LDRB (R312); LDRBT is its post-indexed form (R317). -/
def State.ldrb (s : State) (c : Cond) (ix : Indexing) (u : Bool) (rn rd : RegNum) (o : Offset) : Result State :=
  let a := s.sdtAddress ix u rn o
  s.underCond c (s.guarded
    (sdtChecks rn o a ++
      [⟨.u7, true, rd == 15⟩, ⟨.u8, false, a.wb && rd == rn⟩, s.hazardCheck (rn :: rd :: o.regs)])
    (.next (((s.loadTail a.addr .byte rn a).writeReg rd (s.memRead a.addr .byte)).fetchNext .seq)))

/-- STR (R313); STRT is its post-indexed form (R317). -/
def State.str (s : State) (c : Cond) (ix : Indexing) (u : Bool) (rn rd : RegNum) (o : Offset) : Result State :=
  let a := s.sdtAddress ix u rn o
  let ea := alignTo .word a.addr
  s.underCond c (s.guarded
    (sdtChecks rn o a ++
      [⟨.u9, false, a.wb && rd == rn⟩, ⟨.u12, false, misaligned4 a.addr⟩,
        s.hazardCheck (rn :: rd :: o.regs), s.prefetchCheck ea .word])
    (.next (s.storeTail ea .word (s.storeValue rd) rn a)))

/-- STRB (R314); STRBT is its post-indexed form (R317). -/
def State.strb (s : State) (c : Cond) (ix : Indexing) (u : Bool) (rn rd : RegNum) (o : Offset) : Result State :=
  let a := s.sdtAddress ix u rn o
  s.underCond c (s.guarded
    (sdtChecks rn o a ++
      [⟨.u7, false, rd == 15⟩, ⟨.u9, false, a.wb && rd == rn⟩,
        s.hazardCheck (rn :: rd :: o.regs), s.prefetchCheck a.addr .byte])
    (.next (s.storeTail a.addr .byte (s.storeValue rd) rn a)))

/-! ## The instructions -/

/-- STR (R313). -/
def execStrImmPre (c : Cond) (u w : Bool) (rn rd : RegNum) (off : BitVec 12) (s : State) : Result State :=
  s.str c (.pre w) u rn rd (.imm off)

/-- STR (R313). -/
def execStrImmPost (c : Cond) (u : Bool) (rn rd : RegNum) (off : BitVec 12) (s : State) : Result State :=
  s.str c .post u rn rd (.imm off)

/-- STR (R313). -/
def execStrRegPre (c : Cond) (u w : Bool) (rn rd : RegNum) (amt : BitVec 5) (k : ShiftKind) (rm : RegNum) (s : State) : Result State :=
  s.str c (.pre w) u rn rd (.reg amt k rm)

/-- STR (R313). -/
def execStrRegPost (c : Cond) (u : Bool) (rn rd : RegNum) (amt : BitVec 5) (k : ShiftKind) (rm : RegNum) (s : State) : Result State :=
  s.str c .post u rn rd (.reg amt k rm)

/-- STRB (R314). -/
def execStrbImmPre (c : Cond) (u w : Bool) (rn rd : RegNum) (off : BitVec 12) (s : State) : Result State :=
  s.strb c (.pre w) u rn rd (.imm off)

/-- STRB (R314). -/
def execStrbImmPost (c : Cond) (u : Bool) (rn rd : RegNum) (off : BitVec 12) (s : State) : Result State :=
  s.strb c .post u rn rd (.imm off)

/-- STRB (R314). -/
def execStrbRegPre (c : Cond) (u w : Bool) (rn rd : RegNum) (amt : BitVec 5) (k : ShiftKind) (rm : RegNum) (s : State) : Result State :=
  s.strb c (.pre w) u rn rd (.reg amt k rm)

/-- STRB (R314). -/
def execStrbRegPost (c : Cond) (u : Bool) (rn rd : RegNum) (amt : BitVec 5) (k : ShiftKind) (rm : RegNum) (s : State) : Result State :=
  s.strb c .post u rn rd (.reg amt k rm)

/-- LDR (R311). -/
def execLdrImmPre (c : Cond) (u w : Bool) (rn rd : RegNum) (off : BitVec 12) (s : State) : Result State :=
  s.ldr c (.pre w) u rn rd (.imm off)

/-- LDR (R311). -/
def execLdrImmPost (c : Cond) (u : Bool) (rn rd : RegNum) (off : BitVec 12) (s : State) : Result State :=
  s.ldr c .post u rn rd (.imm off)

/-- LDR (R311). -/
def execLdrRegPre (c : Cond) (u w : Bool) (rn rd : RegNum) (amt : BitVec 5) (k : ShiftKind) (rm : RegNum) (s : State) : Result State :=
  s.ldr c (.pre w) u rn rd (.reg amt k rm)

/-- LDR (R311). -/
def execLdrRegPost (c : Cond) (u : Bool) (rn rd : RegNum) (amt : BitVec 5) (k : ShiftKind) (rm : RegNum) (s : State) : Result State :=
  s.ldr c .post u rn rd (.reg amt k rm)

/-- LDRB (R312). -/
def execLdrbImmPre (c : Cond) (u w : Bool) (rn rd : RegNum) (off : BitVec 12) (s : State) : Result State :=
  s.ldrb c (.pre w) u rn rd (.imm off)

/-- LDRB (R312). -/
def execLdrbImmPost (c : Cond) (u : Bool) (rn rd : RegNum) (off : BitVec 12) (s : State) : Result State :=
  s.ldrb c .post u rn rd (.imm off)

/-- LDRB (R312). -/
def execLdrbRegPre (c : Cond) (u w : Bool) (rn rd : RegNum) (amt : BitVec 5) (k : ShiftKind) (rm : RegNum) (s : State) : Result State :=
  s.ldrb c (.pre w) u rn rd (.reg amt k rm)

/-- LDRB (R312). -/
def execLdrbRegPost (c : Cond) (u : Bool) (rn rd : RegNum) (amt : BitVec 5) (k : ShiftKind) (rm : RegNum) (s : State) : Result State :=
  s.ldrb c .post u rn rd (.reg amt k rm)

/-- STRT (R317). -/
def execStrtImm (c : Cond) (u : Bool) (rn rd : RegNum) (off : BitVec 12) (s : State) : Result State :=
  s.str c .user u rn rd (.imm off)

/-- STRT (R317). -/
def execStrtReg (c : Cond) (u : Bool) (rn rd : RegNum) (amt : BitVec 5) (k : ShiftKind) (rm : RegNum) (s : State) : Result State :=
  s.str c .user u rn rd (.reg amt k rm)

/-- STRBT (R317). -/
def execStrbtImm (c : Cond) (u : Bool) (rn rd : RegNum) (off : BitVec 12) (s : State) : Result State :=
  s.strb c .user u rn rd (.imm off)

/-- STRBT (R317). -/
def execStrbtReg (c : Cond) (u : Bool) (rn rd : RegNum) (amt : BitVec 5) (k : ShiftKind) (rm : RegNum) (s : State) : Result State :=
  s.strb c .user u rn rd (.reg amt k rm)

/-- LDRT (R317). -/
def execLdrtImm (c : Cond) (u : Bool) (rn rd : RegNum) (off : BitVec 12) (s : State) : Result State :=
  s.ldr c .user u rn rd (.imm off)

/-- LDRT (R317). -/
def execLdrtReg (c : Cond) (u : Bool) (rn rd : RegNum) (amt : BitVec 5) (k : ShiftKind) (rm : RegNum) (s : State) : Result State :=
  s.ldr c .user u rn rd (.reg amt k rm)

/-- LDRBT (R317). -/
def execLdrbtImm (c : Cond) (u : Bool) (rn rd : RegNum) (off : BitVec 12) (s : State) : Result State :=
  s.ldrb c .user u rn rd (.imm off)

/-- LDRBT (R317). -/
def execLdrbtReg (c : Cond) (u : Bool) (rn rd : RegNum) (amt : BitVec 5) (k : ShiftKind) (rm : RegNum) (s : State) : Result State :=
  s.ldrb c .user u rn rd (.reg amt k rm)

end Sys2Proof.Machine
end

