-- ==== Sys2Proof/Machine/HalfwordTransfer.lean ====
section
/-! DEFINITION. ARM halfword and signed data transfer (43_arm_load_store.md R319 to R324, R329). -/

namespace Sys2Proof.Machine

/-- The restrictions a halfword transfer has in every form (R319, R324); `sbz` is op[11:8] of the register form. -/
def hwChecks (p w : Bool) (rn : RegNum) (sbz : BitVec 4) (o : HwOffset) (a : Address) : List Check :=
  [⟨.u5, false, sbz != 0⟩, ⟨.u10, true, !p && w⟩, ⟨.u7, true, a.wb && rn == 15⟩, ⟨.u7, true, o.regs.contains 15⟩]

/-- A load of this file: `w` is the width of its access, `ea` the address presented, `data` the value, `ks` the
U-case of an odd address (R320, R322, R323). -/
def State.hwLoad (s : State) (c : Cond) (p u w : Bool) (rn rd : RegNum) (sbz : BitVec 4) (o : HwOffset)
    (ea : Word) (wd : Width) (data : Word) (ks : List Check) : Result State :=
  let a := s.hwAddress p u w rn o
  s.underCond c (s.guarded
    (hwChecks p w rn sbz o a ++ [⟨.u7, true, rd == 15⟩, ⟨.u8, false, a.wb && rd == rn⟩] ++ ks ++
      [s.hazardCheck (rn :: rd :: o.regs)])
    (.next (((s.loadTail ea wd rn a).writeReg rd data).fetchNext .seq)))

/-- Case U11 of a halfword access (R90, R320). -/
def oddCheck (a : Word) : Check := ⟨.u11, false, a.getLsbD 0⟩

/-- LDRH (R320). -/
def State.ldrh (s : State) (c : Cond) (p u w : Bool) (rn rd : RegNum) (sbz : BitVec 4) (o : HwOffset) :
    Result State :=
  let ea := (s.hwAddress p u w rn o).addr
  s.hwLoad c p u w rn rd sbz o (alignTo .half ea) .half (s.loadHalf ea) [oddCheck ea]

/-- LDRSB (R322). -/
def State.ldrsb (s : State) (c : Cond) (p u w : Bool) (rn rd : RegNum) (sbz : BitVec 4) (o : HwOffset) :
    Result State :=
  let ea := (s.hwAddress p u w rn o).addr
  s.hwLoad c p u w rn rd sbz o ea .byte (s.loadSignedByte ea) []

/-- LDRSH (R323). -/
def State.ldrsh (s : State) (c : Cond) (p u w : Bool) (rn rd : RegNum) (sbz : BitVec 4) (o : HwOffset) :
    Result State :=
  let ea := (s.hwAddress p u w rn o).addr
  s.hwLoad c p u w rn rd sbz o ea (signedHalfWidth ea) (s.loadSignedHalf ea) [oddCheck ea]

/-- STRH (R321). -/
def State.strh (s : State) (c : Cond) (p u w : Bool) (rn rd : RegNum) (sbz : BitVec 4) (o : HwOffset) :
    Result State :=
  let a := s.hwAddress p u w rn o
  let ea := alignTo .half a.addr
  s.underCond c (s.guarded
    (hwChecks p w rn sbz o a ++
      [⟨.u7, false, rd == 15⟩, ⟨.u9, false, a.wb && rd == rn⟩, oddCheck a.addr,
        s.hazardCheck (rn :: rd :: o.regs), s.prefetchCheck ea .half])
    (.next (s.storeTail ea .half (s.storeValue rd) rn a)))

/-- The reserved encodings with L = 0 and SH = 10 or 11: U22 under both policies (R329). -/
def State.reservedHalfword (s : State) (c : Cond) : Result State :=
  s.underCond c (.fault (.unpredictable .u22 s.instrAddr))

/-! ## The instructions -/

/-- STRH (R321). -/
def execStrhReg (c : Cond) (p u w : Bool) (rn rd sbz rm : RegNum) (s : State) : Result State :=
  s.strh c p u w rn rd sbz (.reg rm)

/-- STRH (R321). -/
def execStrhImm (c : Cond) (p u w : Bool) (rn rd : RegNum) (hi lo : BitVec 4) (s : State) : Result State :=
  s.strh c p u w rn rd 0 (.imm hi lo)

/-- LDRH (R320). -/
def execLdrhReg (c : Cond) (p u w : Bool) (rn rd sbz rm : RegNum) (s : State) : Result State :=
  s.ldrh c p u w rn rd sbz (.reg rm)

/-- LDRH (R320). -/
def execLdrhImm (c : Cond) (p u w : Bool) (rn rd : RegNum) (hi lo : BitVec 4) (s : State) : Result State :=
  s.ldrh c p u w rn rd 0 (.imm hi lo)

/-- LDRSB (R322). -/
def execLdrsbReg (c : Cond) (p u w : Bool) (rn rd sbz rm : RegNum) (s : State) : Result State :=
  s.ldrsb c p u w rn rd sbz (.reg rm)

/-- LDRSB (R322). -/
def execLdrsbImm (c : Cond) (p u w : Bool) (rn rd : RegNum) (hi lo : BitVec 4) (s : State) : Result State :=
  s.ldrsb c p u w rn rd 0 (.imm hi lo)

/-- LDRSH (R323). -/
def execLdrshReg (c : Cond) (p u w : Bool) (rn rd sbz rm : RegNum) (s : State) : Result State :=
  s.ldrsh c p u w rn rd sbz (.reg rm)

/-- LDRSH (R323). -/
def execLdrshImm (c : Cond) (p u w : Bool) (rn rd : RegNum) (hi lo : BitVec 4) (s : State) : Result State :=
  s.ldrsh c p u w rn rd 0 (.imm hi lo)

/-- RESERVED_LSH (R329). -/
def execReservedLsh10Reg (c : Cond) (_p _u _w : Bool) (_rn _rd _hi _lo : BitVec 4) (s : State) : Result State :=
  s.reservedHalfword c

/-- RESERVED_LSH (R329). -/
def execReservedLsh10Imm (c : Cond) (_p _u _w : Bool) (_rn _rd _hi _lo : BitVec 4) (s : State) : Result State :=
  s.reservedHalfword c

/-- RESERVED_LSH (R329). -/
def execReservedLsh11Reg (c : Cond) (_p _u _w : Bool) (_rn _rd _hi _lo : BitVec 4) (s : State) : Result State :=
  s.reservedHalfword c

/-- RESERVED_LSH (R329). -/
def execReservedLsh11Imm (c : Cond) (_p _u _w : Bool) (_rn _rd _hi _lo : BitVec 4) (s : State) : Result State :=
  s.reservedHalfword c

end Sys2Proof.Machine
end

