-- ==== Sys2Proof/Machine/Multiply.lean ====
section
/-! DEFINITION. ARM multiply (45_arm_multiply.md R370 to R378). -/

namespace Sys2Proof.Machine

/-- A multiply with a 32-bit result: the internal cycles, Rd, and with S = 1 the flags (R371, R372). `named` is
the registers it names, `ks` the U-cases its form adds. -/
def State.multiply (s : State) (c : Cond) (ks : List Check) (named : List RegNum) (sf : Bool) (rd rm : RegNum)
    (res : Word) (k : Nat) : Result State :=
  let s1 := s.internal k
  s.underCond c (s.guarded
    (ks ++ [⟨.u6, true, named.contains 15⟩, ⟨.u6, false, rd == rm⟩, s.hazardCheck named])
    (.next (((if sf then s1.setMulFlags res else s1).writeReg rd res).fetchNext .seq)))

/-- MUL (R371). Its op[15:12] is SBZ and names no register, so 1111 there is U5 alone (R164) and not the 'Rn equal
to 15' of R377, which is MLA's (DEDUCED, log 25). -/
def State.mulShort (s : State) (c : Cond) (sf : Bool) (rd sbz rs rm : RegNum) : Result State :=
  s.multiply c [⟨.u5, false, sbz != 0⟩] [rd, rs, rm] sf rd rm (s.readReg rm * s.readReg rs)
    (mulCycles (s.readReg rs))

/-- MLA (R372). -/
def State.mulAdd (s : State) (c : Cond) (sf : Bool) (rd rn rs rm : RegNum) : Result State :=
  s.multiply c [] [rd, rn, rs, rm] sf rd rm (s.readReg rm * s.readReg rs + s.readReg rn)
    (mulCycles (s.readReg rs) + 1)

/-- A multiply with a 64-bit result: RdLo, RdHi, and with S = 1 the flags (R373 to R376). -/
def State.multiplyLong (s : State) (c : Cond) (sf : Bool) (rdHi rdLo rs rm : RegNum) (res : BitVec 64) (k : Nat) :
    Result State :=
  let s1 := s.internal k
  s.underCond c (s.guarded
    [⟨.u6, true, [rdHi, rdLo, rs, rm].contains 15⟩, ⟨.u6, true, rdHi == rdLo⟩,
      ⟨.u6, false, rdHi == rm || rdLo == rm⟩, s.hazardCheck [rdHi, rdLo, rs, rm]]
    (.next ((((if sf then s1.setLongMulFlags res else s1).writeReg rdLo (res.extractLsb' 0 32)).writeReg rdHi
      (res.extractLsb' 32 32)).fetchNext .seq)))

/-- The exact product of two unsigned words (R373, R374). -/
def unsignedProduct (a b : Word) : BitVec 64 := a.setWidth 64 * b.setWidth 64

/-- The product of two signed words, in 64 bits (R375, R376). -/
def signedProduct (a b : Word) : BitVec 64 := a.signExtend 64 * b.signExtend 64

/-- The accumulator `{x[RdHi], x[RdLo]}` (R374, R376). -/
def State.longAcc (s : State) (rdHi rdLo : RegNum) : BitVec 64 := s.readReg rdHi ++ s.readReg rdLo

/-! ## The instructions -/

/-- MUL (R371). -/
def execMul (c : Cond) (sf : Bool) (rd sbz rs rm : RegNum) (s : State) : Result State := s.mulShort c sf rd sbz rs rm

/-- MLA (R372). -/
def execMla (c : Cond) (sf : Bool) (rd rn rs rm : RegNum) (s : State) : Result State := s.mulAdd c sf rd rn rs rm

/-- UMULL (R373). -/
def execUmull (c : Cond) (sf : Bool) (rdHi rdLo rs rm : RegNum) (s : State) : Result State :=
  s.multiplyLong c sf rdHi rdLo rs rm (unsignedProduct (s.readReg rm) (s.readReg rs))
    (mulCycles (s.readReg rs) + 1)

/-- UMLAL (R374). -/
def execUmlal (c : Cond) (sf : Bool) (rdHi rdLo rs rm : RegNum) (s : State) : Result State :=
  s.multiplyLong c sf rdHi rdLo rs rm (unsignedProduct (s.readReg rm) (s.readReg rs) + s.longAcc rdHi rdLo)
    (mulCycles (s.readReg rs) + 2)

/-- SMULL (R375). -/
def execSmull (c : Cond) (sf : Bool) (rdHi rdLo rs rm : RegNum) (s : State) : Result State :=
  s.multiplyLong c sf rdHi rdLo rs rm (signedProduct (s.readReg rm) (s.readReg rs))
    (mulCycles (s.readReg rs) + 1)

/-- SMLAL (R376). -/
def execSmlal (c : Cond) (sf : Bool) (rdHi rdLo rs rm : RegNum) (s : State) : Result State :=
  s.multiplyLong c sf rdHi rdLo rs rm (signedProduct (s.readReg rm) (s.readReg rs) + s.longAcc rdHi rdLo)
    (mulCycles (s.readReg rs) + 2)

end Sys2Proof.Machine
end

