-- ==== Sys2Proof/Machine/PsrTransfer.lean ====
section
/-! DEFINITION. PSR transfer: MRS and MSR (42_arm_data_processing.md R280 to R283). -/

namespace Sys2Proof.Machine

/-- The value MRS reads: the CPSR, or the SPSR, which in User and System mode is a draw (R280, R43). -/
def State.readPsr (s : State) (r : Bool) : Word :=
  if r then (if s.hasSpsr then (s.spsrs.get s.bank).toWord else s.drawn) else s.cpsr.toWord

/-- How many free values an MRS draws. -/
def State.psrDraws (s : State) (r : Bool) : Nat := if r && !s.hasSpsr then 1 else 0

/-- MRS (R280). -/
def State.moveFromPsr (s : State) (c : Cond) (r : Bool) (sbo : BitVec 4) (rd : RegNum) (sbzHi sbzLo : BitVec 4) :
    Result State :=
  s.underCond c (s.guarded
    [⟨.u5, false, sbo != 15 || sbzHi != 0 || sbzLo != 0⟩, ⟨.u24, true, rd == 15⟩, s.hazardCheck [rd]]
    (.next (((s.afterDraws (s.psrDraws r)).writeReg rd (s.readPsr r)).fetchNext .seq)))

/-- The bytes a field mask selects (R283). -/
def psrByteMask (mask : BitVec 4) : Word :=
  (if mask.getLsbD 3 then 0xFF000000 else 0) ||| (if mask.getLsbD 2 then 0x00FF0000 else 0) |||
    (if mask.getLsbD 1 then 0x0000FF00 else 0) ||| (if mask.getLsbD 0 then 0x000000FF else 0)

/-- A status register with the masked bits replaced (R283). -/
def Psr.merge (p : Psr) (mask v : Word) : Psr := Psr.ofWord ((p.toWord &&& ~~~mask) ||| (v &&& mask))

/-- The byte mask an MSR to the CPSR uses: in User mode the flags byte alone (R283). -/
def State.cpsrByteMask (s : State) (mask : BitVec 4) : Word :=
  if s.cpsr.m = Mode.user.bits then psrByteMask mask &&& 0xFF000000 else psrByteMask mask

/-- The CPSR an MSR would write (R283). -/
def State.msrCpsr (s : State) (mask : BitVec 4) (v : Word) : Psr := s.cpsr.merge (s.cpsrByteMask mask) v

/-- The U-cases of the MSR operation (R283). -/
def State.msrChecks (s : State) (r : Bool) (mask : BitVec 4) (v : Word) : List Check :=
  if r then [⟨.u3, false, !s.hasSpsr⟩]
  else [⟨.u18, true, (s.msrCpsr mask v).t != s.cpsr.t⟩, ⟨.u2, true, (s.msrCpsr mask v).mode.isNone⟩]

/-- The state after the MSR operation; in User and System mode an MSR to the SPSR has no effect (R283). -/
def State.msrWrite (s : State) (r : Bool) (mask : BitVec 4) (v : Word) : State :=
  if r then { s with spsrs := s.spsrs.set s.bank ((s.spsrs.get s.bank).merge (psrByteMask mask) v) }
  else { s with cpsr := s.msrCpsr mask v }

/-- MSR of a value (R281, R282, R283), with the U-cases its form adds. -/
def State.moveToPsr (s : State) (c : Cond) (r : Bool) (mask : BitVec 4) (v : Word) (ks : List Check) :
    Result State :=
  s.underCond c (s.guarded (ks ++ s.msrChecks r mask v) (.next ((s.msrWrite r mask v).fetchNext .seq)))

/-- MSR of a register (R281). -/
def State.moveToPsrReg (s : State) (c : Cond) (r : Bool) (mask sbo sbz : BitVec 4) (rm : RegNum) : Result State :=
  s.moveToPsr c r mask (s.readReg rm)
    [⟨.u5, false, sbo != 15 || sbz != 0⟩, ⟨.u24, true, rm == 15⟩, s.hazardCheck [rm]]

/-- MSR of a rotated immediate (R282): the shifter carry is unused. -/
def State.moveToPsrImm (s : State) (c : Cond) (r : Bool) (mask sbo rot : BitVec 4) (imm : Byte) : Result State :=
  s.moveToPsr c r mask (rotateImm rot imm s.cpsr.c).res [⟨.u5, false, sbo != 15⟩]

/-! ## The instructions -/

/-- MRS (R280). -/
def execMrs (c : Cond) (r : Bool) (sbo : BitVec 4) (rd : RegNum) (sbzHi sbzLo : BitVec 4) (s : State) : Result State :=
  s.moveFromPsr c r sbo rd sbzHi sbzLo

/-- MSR (R281). -/
def execMsrReg (c : Cond) (r : Bool) (mask sbo sbz : BitVec 4) (rm : RegNum) (s : State) : Result State :=
  s.moveToPsrReg c r mask sbo sbz rm

/-- MSR (R282). -/
def execMsrImm (c : Cond) (r : Bool) (mask sbo rot : BitVec 4) (imm : Byte) (s : State) : Result State :=
  s.moveToPsrImm c r mask sbo rot imm

end Sys2Proof.Machine
end

