-- ==== Sys2Proof/Machine/Swap.lean ====
section
/-! DEFINITION. ARM swap (43_arm_load_store.md R325 to R327). -/

namespace Sys2Proof.Machine

/-- A swap: the read and the write at `ea`, one internal cycle, then Rd (R325, R326); `old` is the value read. -/
def State.swap (s : State) (c : Cond) (rn rd sbz rm : RegNum) (ea : Word) (w : Width) (old : Word)
    (ks : List Check) : Result State :=
  s.underCond c (s.guarded
    ([⟨.u5, false, sbz != 0⟩, ⟨.u23, true, rd == 15 || rn == 15 || rm == 15⟩,
        ⟨.u23, false, rn == rd || rn == rm⟩] ++ ks ++ [s.hazardCheck [rn, rd, rm], s.prefetchCheck ea w])
    (.next (((((s.chargeData ea w .nonSeq).memWrite ea w (s.readReg rm) .nonSeq).internal 1).writeReg rd
      old).fetchNext .seq)))

/-- SWP (R325): the read is rotated, the write aligned. -/
def State.swapWord (s : State) (c : Cond) (rn rd sbz rm : RegNum) : Result State :=
  s.swap c rn rd sbz rm (alignTo .word (s.readReg rn)) .word (s.loadWordRotated (s.readReg rn))
    [⟨.u13, false, misaligned4 (s.readReg rn)⟩]

/-- SWPB (R326). -/
def State.swapByte (s : State) (c : Cond) (rn rd sbz rm : RegNum) : Result State :=
  s.swap c rn rd sbz rm (s.readReg rn) .byte (s.memRead (s.readReg rn) .byte) []

/-! ## The instructions -/

/-- SWP (R325). -/
def execSwp (c : Cond) (rn rd sbz rm : RegNum) (s : State) : Result State := s.swapWord c rn rd sbz rm

/-- SWPB (R326). -/
def execSwpb (c : Cond) (rn rd sbz rm : RegNum) (s : State) : Result State := s.swapByte c rn rd sbz rm

end Sys2Proof.Machine
end

