-- ==== Sys2Proof/Machine/ThumbAlu.lean ====
section
/-! DEFINITION. THUMB data processing (47_thumb_alu.md R410 to R447). -/

namespace Sys2Proof.Machine

/-- `x[r]` of a low register. -/
def State.low (s : State) (r : LowReg) : Word := s.readReg r.toReg

/-- A low destination written after the flags, and the next fetch. -/
def State.putLow (s : State) (rd : LowReg) (v : Word) : Result State :=
  .next ((s.writeReg rd.toReg v).fetchNext .seq)

/-- A form 1 shift (R411 to R413): V unchanged. -/
def State.thumbShiftImm (s : State) (k : ShiftKind) (off : BitVec 5) (rs rd : LowReg) : Result State :=
  let o := shiftImm k (s.low rs) off s.cpsr.c
  (s.setNZC o.res o.c).putLow rd o.res

/-- A form 4 shift (R424 to R426, R429): one internal cycle, V unchanged. -/
def State.thumbShiftReg (s : State) (k : ShiftKind) (rs rd : LowReg) : Result State :=
  let o := shiftReg k (s.low rd) ((s.low rs).extractLsb' 0 8) s.cpsr.c
  ((s.internal 1).setNZC o.res o.c).putLow rd o.res

/-- An arithmetic result with all four flags (R414 to R417, R420, R421, R427, R428, R431). -/
def State.thumbArith (s : State) (rd : LowReg) (o : AluOut) : Result State := (s.setFlags o).putLow rd o.res

/-- A logical result with N and Z alone (R418, R422, R423, R434, R436, R437). -/
def State.thumbLogic (s : State) (rd : LowReg) (res : Word) : Result State := (s.setNZ res).putLow rd res

/-- A comparison (R419, R432, R433). -/
def State.thumbCompare (s : State) (o : AluOut) : Result State := .next ((s.setFlags o).fetchNext .seq)

/-- TST (R430). -/
def State.thumbTest (s : State) (res : Word) : Result State := .next ((s.setNZ res).fetchNext .seq)

/-- MUL (R435): C is a free value, m is computed from the destination. -/
def State.thumbMul (s : State) (rs rd : LowReg) : Result State :=
  ((s.internal (mulCycles (s.low rd))).setMulFlags (s.low rs * s.low rd)).putLow rd (s.low rs * s.low rd)

/-- The U-cases of format 5 (R438). -/
def State.hiChecks (s : State) (h1 h2 : Bool) (rs rd : LowReg) : List Check :=
  [⟨.u20, false, !h1 && !h2⟩, s.hazardCheck [hiReg h1 rd, hiReg h2 rs]]

/-- The destination of ADD and MOV of format 5: R15 branches in THUMB state, no flags (R439, R441). -/
def State.putHi (s : State) (hd : RegNum) (res : Word) : State :=
  if hd = 15 then s.branchTo res else (s.writeReg hd res).fetchNext .seq

/-- ADD of format 5 (R439). -/
def State.thumbAddHi (s : State) (h1 h2 : Bool) (rs rd : LowReg) : Result State :=
  s.guarded (s.hiChecks h1 h2 rs rd)
    (.next (s.putHi (hiReg h1 rd) (s.readReg (hiReg h1 rd) + s.readReg (hiReg h2 rs))))

/-- CMP of format 5 (R440). -/
def State.thumbCmpHi (s : State) (h1 h2 : Bool) (rs rd : LowReg) : Result State :=
  s.guarded (s.hiChecks h1 h2 rs rd)
    (.next ((s.setFlags (sub (s.readReg (hiReg h1 rd)) (s.readReg (hiReg h2 rs)))).fetchNext .seq))

/-- MOV of format 5 (R441). -/
def State.thumbMovHi (s : State) (h1 h2 : Bool) (rs rd : LowReg) : Result State :=
  s.guarded (s.hiChecks h1 h2 rs rd) (.next (s.putHi (hiReg h1 rd) (s.readReg (hiReg h2 rs))))

/-- ADD Rd, PC, #imm (R444). -/
def State.thumbAddPc (s : State) (rd : LowReg) (word8 : Byte) : Result State :=
  s.putLow rd (s.thumbPcBase + scaled8 word8)

/-- ADD Rd, SP, #imm (R445). -/
def State.thumbAddSp (s : State) (rd : LowReg) (word8 : Byte) : Result State :=
  s.guarded [s.hazardCheck [13]] (s.putLow rd (s.readReg 13 + scaled8 word8))

/-- The stack pointer moved, no flags (R446, R447). -/
def State.thumbMoveSp (s : State) (sp : Word) : Result State :=
  s.guarded [s.hazardCheck [13]] (.next ((s.writeReg 13 sp).fetchNext .seq))

/-! ## The instructions -/

/-- LSL (R411). -/
def execTLslImm (off : BitVec 5) (rs rd : LowReg) (s : State) : Result State := s.thumbShiftImm .lsl off rs rd

/-- LSR (R412). -/
def execTLsrImm (off : BitVec 5) (rs rd : LowReg) (s : State) : Result State := s.thumbShiftImm .lsr off rs rd

/-- ASR (R413). -/
def execTAsrImm (off : BitVec 5) (rs rd : LowReg) (s : State) : Result State := s.thumbShiftImm .asr off rs rd

/-- ADD (R414). -/
def execTAddReg (rn rs rd : LowReg) (s : State) : Result State :=
  s.thumbArith rd (addWithCarry (s.low rs) (s.low rn) false)

/-- SUB (R415). -/
def execTSubReg (rn rs rd : LowReg) (s : State) : Result State := s.thumbArith rd (sub (s.low rs) (s.low rn))

/-- ADD (R416). -/
def execTAddImm3 (off : BitVec 3) (rs rd : LowReg) (s : State) : Result State :=
  s.thumbArith rd (addWithCarry (s.low rs) (off.setWidth 32) false)

/-- SUB (R417). -/
def execTSubImm3 (off : BitVec 3) (rs rd : LowReg) (s : State) : Result State :=
  s.thumbArith rd (sub (s.low rs) (off.setWidth 32))

/-- MOV (R418). -/
def execTMovImm8 (rd : LowReg) (off : Byte) (s : State) : Result State := s.thumbLogic rd (off.setWidth 32)

/-- CMP (R419). -/
def execTCmpImm8 (rd : LowReg) (off : Byte) (s : State) : Result State :=
  s.thumbCompare (sub (s.low rd) (off.setWidth 32))

/-- ADD (R420). -/
def execTAddImm8 (rd : LowReg) (off : Byte) (s : State) : Result State :=
  s.thumbArith rd (addWithCarry (s.low rd) (off.setWidth 32) false)

/-- SUB (R421). -/
def execTSubImm8 (rd : LowReg) (off : Byte) (s : State) : Result State :=
  s.thumbArith rd (sub (s.low rd) (off.setWidth 32))

/-- AND (R422). -/
def execTAnd (rs rd : LowReg) (s : State) : Result State := s.thumbLogic rd (s.low rd &&& s.low rs)

/-- EOR (R423). -/
def execTEor (rs rd : LowReg) (s : State) : Result State := s.thumbLogic rd (s.low rd ^^^ s.low rs)

/-- LSL (R424). -/
def execTLsl (rs rd : LowReg) (s : State) : Result State := s.thumbShiftReg .lsl rs rd

/-- LSR (R425). -/
def execTLsr (rs rd : LowReg) (s : State) : Result State := s.thumbShiftReg .lsr rs rd

/-- ASR (R426). -/
def execTAsr (rs rd : LowReg) (s : State) : Result State := s.thumbShiftReg .asr rs rd

/-- ADC (R427). -/
def execTAdc (rs rd : LowReg) (s : State) : Result State :=
  s.thumbArith rd (adc s.params.adcV (s.low rd) (s.low rs) s.cpsr.c)

/-- SBC (R428). -/
def execTSbc (rs rd : LowReg) (s : State) : Result State := s.thumbArith rd (sbc (s.low rd) (s.low rs) s.cpsr.c)

/-- ROR (R429). -/
def execTRor (rs rd : LowReg) (s : State) : Result State := s.thumbShiftReg .ror rs rd

/-- TST (R430). -/
def execTTst (rs rd : LowReg) (s : State) : Result State := s.thumbTest (s.low rd &&& s.low rs)

/-- NEG (R431). -/
def execTNeg (rs rd : LowReg) (s : State) : Result State := s.thumbArith rd (sub 0 (s.low rs))

/-- CMP (R432). -/
def execTCmp (rs rd : LowReg) (s : State) : Result State := s.thumbCompare (sub (s.low rd) (s.low rs))

/-- CMN (R433). -/
def execTCmn (rs rd : LowReg) (s : State) : Result State := s.thumbCompare (addWithCarry (s.low rd) (s.low rs) false)

/-- ORR (R434). -/
def execTOrr (rs rd : LowReg) (s : State) : Result State := s.thumbLogic rd (s.low rd ||| s.low rs)

/-- MUL (R435). -/
def execTMul (rs rd : LowReg) (s : State) : Result State := s.thumbMul rs rd

/-- BIC (R436). -/
def execTBic (rs rd : LowReg) (s : State) : Result State := s.thumbLogic rd (s.low rd &&& ~~~(s.low rs))

/-- MVN (R437). -/
def execTMvn (rs rd : LowReg) (s : State) : Result State := s.thumbLogic rd (~~~(s.low rs))

/-- ADD (R439). -/
def execTAddHi (h1 h2 : Bool) (rs rd : LowReg) (s : State) : Result State := s.thumbAddHi h1 h2 rs rd

/-- CMP (R440). -/
def execTCmpHi (h1 h2 : Bool) (rs rd : LowReg) (s : State) : Result State := s.thumbCmpHi h1 h2 rs rd

/-- MOV (R441). -/
def execTMovHi (h1 h2 : Bool) (rs rd : LowReg) (s : State) : Result State := s.thumbMovHi h1 h2 rs rd

/-- ADD (R444). -/
def execTAddPc (rd : LowReg) (word8 : Byte) (s : State) : Result State := s.thumbAddPc rd word8

/-- ADD (R445). -/
def execTAddSp (rd : LowReg) (word8 : Byte) (s : State) : Result State := s.thumbAddSp rd word8

/-- ADD (R446). -/
def execTIncSp (word7 : BitVec 7) (s : State) : Result State := s.thumbMoveSp (s.readReg 13 + scaled7 word7)

/-- SUB (R447). -/
def execTDecSp (word7 : BitVec 7) (s : State) : Result State := s.thumbMoveSp (s.readReg 13 - scaled7 word7)

end Sys2Proof.Machine
end

