-- ==== Sys2Proof/Machine/ThumbBranch.lean ====
section
/-! DEFINITION. THUMB branches, BX, SWI and undefined encodings (49_thumb_branch.md R500 to R506). -/

namespace Sys2Proof.Machine

/-- B<cond> (R500). -/
def State.thumbBranchCond (s : State) (c : Cond) (off : Byte) : Result State :=
  .next (if c.passes s.cpsr then s.branchTo (s.instrAddr + 4 + branchOffset8 off) else s.fetchNext .seq)

/-- B (R502). -/
def State.thumbBranch (s : State) (off : BitVec 11) : Result State :=
  .next (s.branchTo (s.instrAddr + 4 + branchOffset11 off))

/-- BX (R503). -/
def State.thumbBx (s : State) (h2 : Bool) (rs : LowReg) (sbz : BitVec 3) : Result State :=
  s.guarded [⟨.u5, false, sbz != 0⟩, s.hazardCheck [hiReg h2 rs], bxCheck (s.readReg (hiReg h2 rs))]
    (.next (s.exchange (s.readReg (hiReg h2 rs))))

/-- BX with H1 = 1: U21 under both policies (R503). -/
def State.reservedBx (s : State) : Result State := .fault (.unpredictable .u21 s.instrAddr)

/-- BL, first half (R504). -/
def State.thumbBlHigh (s : State) (off : BitVec 11) : Result State :=
  s.guarded [s.hazardCheck [14]]
    (.next ((s.writeReg 14 (s.instrAddr + 4 + branchOffsetHigh off)).fetchNext .seq))

/-- BL, second half (R505). -/
def State.thumbBlLow (s : State) (off : BitVec 11) : Result State :=
  s.guarded [s.hazardCheck [14]]
    (.next ((s.writeReg 14 ((s.instrAddr + 2) ||| 1)).branchTo (s.readReg 14 + branchOffsetLow off)))

/-! ## The instructions -/

/-- BX (R503). -/
def execTBx (h2 : Bool) (rs : LowReg) (sbz : BitVec 3) (s : State) : Result State := s.thumbBx h2 rs sbz

/-- BX_H1 (R503). -/
def execTBxH1 (_h2 : Bool) (_rs : LowReg) (_sbz : BitVec 3) (s : State) : Result State := s.reservedBx

/-- BEQ (R500). -/
def execTBeq (off : Byte) (s : State) : Result State := s.thumbBranchCond .eq off

/-- BNE (R500). -/
def execTBne (off : Byte) (s : State) : Result State := s.thumbBranchCond .ne off

/-- BCS (R500). -/
def execTBcs (off : Byte) (s : State) : Result State := s.thumbBranchCond .cs off

/-- BCC (R500). -/
def execTBcc (off : Byte) (s : State) : Result State := s.thumbBranchCond .cc off

/-- BMI (R500). -/
def execTBmi (off : Byte) (s : State) : Result State := s.thumbBranchCond .mi off

/-- BPL (R500). -/
def execTBpl (off : Byte) (s : State) : Result State := s.thumbBranchCond .pl off

/-- BVS (R500). -/
def execTBvs (off : Byte) (s : State) : Result State := s.thumbBranchCond .vs off

/-- BVC (R500). -/
def execTBvc (off : Byte) (s : State) : Result State := s.thumbBranchCond .vc off

/-- BHI (R500). -/
def execTBhi (off : Byte) (s : State) : Result State := s.thumbBranchCond .hi off

/-- BLS (R500). -/
def execTBls (off : Byte) (s : State) : Result State := s.thumbBranchCond .ls off

/-- BGE (R500). -/
def execTBge (off : Byte) (s : State) : Result State := s.thumbBranchCond .ge off

/-- BLT (R500). -/
def execTBlt (off : Byte) (s : State) : Result State := s.thumbBranchCond .lt off

/-- BGT (R500). -/
def execTBgt (off : Byte) (s : State) : Result State := s.thumbBranchCond .gt off

/-- BLE (R500). -/
def execTBle (off : Byte) (s : State) : Result State := s.thumbBranchCond .le off

/-- SWI (R501). -/
def execTSwi (_imm : Byte) (s : State) : Result State := s.softwareInterrupt

/-- B (R502). -/
def execTB (off : BitVec 11) (s : State) : Result State := s.thumbBranch off

/-- BL (R504). -/
def execTBlHigh (off : BitVec 11) (s : State) : Result State := s.thumbBlHigh off

/-- BL (R505). -/
def execTBlLow (off : BitVec 11) (s : State) : Result State := s.thumbBlLow off

/-- UND (R506). -/
def execTUndB1 (_bits : BitVec 8) (s : State) : Result State := s.undefinedTrap

/-- UND (R506). -/
def execTUndB2 (_bits : BitVec 9) (s : State) : Result State := s.undefinedTrap

/-- UND (R506). -/
def execTUndB6 (_bits : BitVec 9) (s : State) : Result State := s.undefinedTrap

/-- UND (R506). -/
def execTUndB8 (_bits : BitVec 10) (s : State) : Result State := s.undefinedTrap

/-- UND (R506). -/
def execTUndBe (_bits : BitVec 9) (s : State) : Result State := s.undefinedTrap

/-- UND (R506). -/
def execTUndDe (_bits : BitVec 8) (s : State) : Result State := s.undefinedTrap

/-- UND (R506). -/
def execTUndE8 (_bits : BitVec 11) (s : State) : Result State := s.undefinedTrap

end Sys2Proof.Machine
end

