-- ==== Sys2Proof/Machine/ThumbMem.lean ====
section
/-! DEFINITION. THUMB loads, stores and block transfers (48_thumb_load_store.md R460 to R481). -/

namespace Sys2Proof.Machine

/-- A THUMB load: the data access at `ea`, one internal cycle, Rd (R460 to R476). -/
def State.thumbLoad (s : State) (ks : List Check) (ea : Word) (w : Width) (rd : LowReg) (data : Word) :
    Result State :=
  s.guarded ks (((s.chargeData ea w .nonSeq).internal 1).putLow rd data)

/-- A THUMB store: the data access at `ea` and a non-sequential fetch (R461 to R475). -/
def State.thumbStore (s : State) (ks : List Check) (ea : Word) (w : Width) (v : Word) : Result State :=
  s.guarded (ks ++ [s.prefetchCheck ea w]) (.next ((s.memWrite ea w v .nonSeq).fetchNext .nonSeq))

/-- A word load at a computed address (R460, R463, R470, R476). -/
def State.thumbLoadWord (s : State) (ks : List Check) (ea : Word) (rd : LowReg) : Result State :=
  s.thumbLoad ks (alignTo .word ea) .word rd (s.loadWordRotated ea)

/-- A byte load (R464, R472). -/
def State.thumbLoadByte (s : State) (ea : Word) (rd : LowReg) : Result State :=
  s.thumbLoad [] ea .byte rd (s.memRead ea .byte)

/-- A halfword load (R467, R474). -/
def State.thumbLoadHalf (s : State) (ea : Word) (rd : LowReg) : Result State :=
  s.thumbLoad [⟨.u11, false, ea.getLsbD 0⟩] (alignTo .half ea) .half rd (s.loadHalf ea)

/-- A signed byte load (R466). -/
def State.thumbLoadSignedByte (s : State) (ea : Word) (rd : LowReg) : Result State :=
  s.thumbLoad [] ea .byte rd (s.loadSignedByte ea)

/-- A signed halfword load (R468). -/
def State.thumbLoadSignedHalf (s : State) (ea : Word) (rd : LowReg) : Result State :=
  s.thumbLoad [⟨.u11, false, ea.getLsbD 0⟩] ea (signedHalfWidth ea) rd (s.loadSignedHalf ea)

/-- A word store (R461, R469, R475). -/
def State.thumbStoreWord (s : State) (ks : List Check) (ea : Word) (rd : LowReg) : Result State :=
  s.thumbStore (⟨.u12, false, misaligned4 ea⟩ :: ks) (alignTo .word ea) .word (s.low rd)

/-- A byte store (R462, R471). -/
def State.thumbStoreByte (s : State) (ea : Word) (rd : LowReg) : Result State :=
  s.thumbStore [] ea .byte (s.low rd)

/-- A halfword store (R465, R473). -/
def State.thumbStoreHalf (s : State) (ea : Word) (rd : LowReg) : Result State :=
  s.thumbStore [⟨.u11, false, ea.getLsbD 0⟩] (alignTo .half ea) .half (s.low rd)

/-- The address of formats 7 and 8 (R461). -/
def State.regAddr (s : State) (rb ro : LowReg) : Word := s.low rb + s.low ro

/-- The address of formats 9 and 10: base + offset5 scaled by the width (R163, R469, R471, R473). -/
def State.immAddr (s : State) (rb : LowReg) (off : BitVec 5) (w : Width) : Word :=
  s.low rb + off.setWidth 32 * BitVec.ofNat 32 w.bytes

/-- The address of format 11 (R475). -/
def State.spAddr (s : State) (word8 : Byte) : Word := s.readReg 13 + scaled8 word8

/-- The list of PUSH: R14 is bit R (R477). -/
def pushList (r : Bool) (rl : Byte) : BitVec 16 := 0#1 ++ BitVec.ofBool r ++ 0#6 ++ rl

/-- The list of POP: R15 is bit R (R478). -/
def popList (r : Bool) (rl : Byte) : BitVec 16 := BitVec.ofBool r ++ 0#7 ++ rl

/-- The restrictions of a THUMB block transfer (R481). -/
def State.thumbBlockChecks (s : State) (rb : RegNum) (rl : BitVec 16) : List Check :=
  [⟨.u28, true, rl == 0⟩, ⟨.u13, false, misaligned4 (s.readReg rb)⟩]

/-- A THUMB block store with write-back (R477, R479). -/
def State.thumbStm (s : State) (m : BlockMode) (rb : RegNum) (rl : BitVec 16) : Result State :=
  s.guarded (s.thumbBlockChecks rb rl ++ [s.hazardCheck (rb :: listRegs rl), s.blockPrefetchCheck m rb rl])
    (.next (s.blockStore s.bank m true rb rl))

/-- PUSH (R477). -/
def State.push (s : State) (r : Bool) (rl : Byte) : Result State := s.thumbStm .db 13 (pushList r rl)

/-- POP (R478): R15 branches in THUMB state. -/
def State.pop (s : State) (r : Bool) (rl : Byte) : Result State :=
  let s1 := s.blockLoad s.bank .ia true 13 (popList r rl)
  s.guarded (s.thumbBlockChecks 13 (popList r rl) ++ [s.hazardCheck [13]])
    (.next (if r then s1.branchTo (s.blockPc (popList r rl) (s.blockStart .ia 13 (popList r rl)))
      else s1.fetchNext .seq))

/-- THUMB LDMIA (R480). -/
def State.thumbLdm (s : State) (rb : LowReg) (rl : Byte) : Result State :=
  let rl16 := rl.setWidth 16
  s.guarded (s.thumbBlockChecks rb.toReg rl16 ++ [baseInList true rb.toReg rl16])
    (.next ((s.blockLoad s.bank .ia true rb.toReg rl16).fetchNext .seq))

/-! ## The instructions -/

/-- LDR (R460). R460's address is word-aligned where A is even; where the host wrote an odd pc (R582) the access is
made as R87 and R88 say of every word load, aligned and rotated (DEDUCED, log 26). -/
def execTLdrPc (rd : LowReg) (word8 : Byte) (s : State) : Result State :=
  s.thumbLoadWord [] (s.thumbPcBase + scaled8 word8) rd

/-- STR (R461). -/
def execTStrReg (ro rb rd : LowReg) (s : State) : Result State := s.thumbStoreWord [] (s.regAddr rb ro) rd

/-- STRH (R465). -/
def execTStrhReg (ro rb rd : LowReg) (s : State) : Result State := s.thumbStoreHalf (s.regAddr rb ro) rd

/-- STRB (R462). -/
def execTStrbReg (ro rb rd : LowReg) (s : State) : Result State := s.thumbStoreByte (s.regAddr rb ro) rd

/-- LDSB (R466). -/
def execTLdsbReg (ro rb rd : LowReg) (s : State) : Result State := s.thumbLoadSignedByte (s.regAddr rb ro) rd

/-- LDR (R463). -/
def execTLdrReg (ro rb rd : LowReg) (s : State) : Result State := s.thumbLoadWord [] (s.regAddr rb ro) rd

/-- LDRH (R467). -/
def execTLdrhReg (ro rb rd : LowReg) (s : State) : Result State := s.thumbLoadHalf (s.regAddr rb ro) rd

/-- LDRB (R464). -/
def execTLdrbReg (ro rb rd : LowReg) (s : State) : Result State := s.thumbLoadByte (s.regAddr rb ro) rd

/-- LDSH (R468). -/
def execTLdshReg (ro rb rd : LowReg) (s : State) : Result State := s.thumbLoadSignedHalf (s.regAddr rb ro) rd

/-- STR (R469). -/
def execTStrImm (off : BitVec 5) (rb rd : LowReg) (s : State) : Result State :=
  s.thumbStoreWord [] (s.immAddr rb off .word) rd

/-- LDR (R470). -/
def execTLdrImm (off : BitVec 5) (rb rd : LowReg) (s : State) : Result State :=
  s.thumbLoadWord [] (s.immAddr rb off .word) rd

/-- STRB (R471). -/
def execTStrbImm (off : BitVec 5) (rb rd : LowReg) (s : State) : Result State :=
  s.thumbStoreByte (s.immAddr rb off .byte) rd

/-- LDRB (R472). -/
def execTLdrbImm (off : BitVec 5) (rb rd : LowReg) (s : State) : Result State :=
  s.thumbLoadByte (s.immAddr rb off .byte) rd

/-- STRH (R473). -/
def execTStrhImm (off : BitVec 5) (rb rd : LowReg) (s : State) : Result State :=
  s.thumbStoreHalf (s.immAddr rb off .half) rd

/-- LDRH (R474). -/
def execTLdrhImm (off : BitVec 5) (rb rd : LowReg) (s : State) : Result State :=
  s.thumbLoadHalf (s.immAddr rb off .half) rd

/-- STR (R475). -/
def execTStrSp (rd : LowReg) (word8 : Byte) (s : State) : Result State :=
  s.thumbStoreWord [s.hazardCheck [13]] (s.spAddr word8) rd

/-- LDR (R476). -/
def execTLdrSp (rd : LowReg) (word8 : Byte) (s : State) : Result State :=
  s.thumbLoadWord [s.hazardCheck [13]] (s.spAddr word8) rd

/-- PUSH (R477). -/
def execTPush (r : Bool) (rl : Byte) (s : State) : Result State := s.push r rl

/-- POP (R478). -/
def execTPop (r : Bool) (rl : Byte) (s : State) : Result State := s.pop r rl

/-- STMIA (R479). -/
def execTStmia (rb : LowReg) (rl : Byte) (s : State) : Result State := s.thumbStm .ia rb.toReg (rl.setWidth 16)

/-- LDMIA (R480). -/
def execTLdmia (rb : LowReg) (rl : Byte) (s : State) : Result State := s.thumbLdm rb rl

end Sys2Proof.Machine
end

