-- ==== Sys2Proof/Machine/Dispatch.lean ====
section
/-! DEFINITION. Dispatch: one arm for each constructor (40_pipeline.md R181, R195; 30_encoding.md R140, R161). -/

namespace Sys2Proof.Machine

def exec (i : Instr) (s : State) : Host.Outcome State Fault Refusal :=
  match i with
  | .andImm c sf rn rd rot imm => Sys2Proof.Machine.execAndImm c sf rn rd rot imm s
  | .andShift c sf rn rd amt k rm => Sys2Proof.Machine.execAndShift c sf rn rd amt k rm s
  | .andRegShift c sf rn rd rs k rm => Sys2Proof.Machine.execAndRegShift c sf rn rd rs k rm s
  | .eorImm c sf rn rd rot imm => Sys2Proof.Machine.execEorImm c sf rn rd rot imm s
  | .eorShift c sf rn rd amt k rm => Sys2Proof.Machine.execEorShift c sf rn rd amt k rm s
  | .eorRegShift c sf rn rd rs k rm => Sys2Proof.Machine.execEorRegShift c sf rn rd rs k rm s
  | .subImm c sf rn rd rot imm => Sys2Proof.Machine.execSubImm c sf rn rd rot imm s
  | .subShift c sf rn rd amt k rm => Sys2Proof.Machine.execSubShift c sf rn rd amt k rm s
  | .subRegShift c sf rn rd rs k rm => Sys2Proof.Machine.execSubRegShift c sf rn rd rs k rm s
  | .rsbImm c sf rn rd rot imm => Sys2Proof.Machine.execRsbImm c sf rn rd rot imm s
  | .rsbShift c sf rn rd amt k rm => Sys2Proof.Machine.execRsbShift c sf rn rd amt k rm s
  | .rsbRegShift c sf rn rd rs k rm => Sys2Proof.Machine.execRsbRegShift c sf rn rd rs k rm s
  | .addImm c sf rn rd rot imm => Sys2Proof.Machine.execAddImm c sf rn rd rot imm s
  | .addShift c sf rn rd amt k rm => Sys2Proof.Machine.execAddShift c sf rn rd amt k rm s
  | .addRegShift c sf rn rd rs k rm => Sys2Proof.Machine.execAddRegShift c sf rn rd rs k rm s
  | .adcImm c sf rn rd rot imm => Sys2Proof.Machine.execAdcImm c sf rn rd rot imm s
  | .adcShift c sf rn rd amt k rm => Sys2Proof.Machine.execAdcShift c sf rn rd amt k rm s
  | .adcRegShift c sf rn rd rs k rm => Sys2Proof.Machine.execAdcRegShift c sf rn rd rs k rm s
  | .sbcImm c sf rn rd rot imm => Sys2Proof.Machine.execSbcImm c sf rn rd rot imm s
  | .sbcShift c sf rn rd amt k rm => Sys2Proof.Machine.execSbcShift c sf rn rd amt k rm s
  | .sbcRegShift c sf rn rd rs k rm => Sys2Proof.Machine.execSbcRegShift c sf rn rd rs k rm s
  | .rscImm c sf rn rd rot imm => Sys2Proof.Machine.execRscImm c sf rn rd rot imm s
  | .rscShift c sf rn rd amt k rm => Sys2Proof.Machine.execRscShift c sf rn rd amt k rm s
  | .rscRegShift c sf rn rd rs k rm => Sys2Proof.Machine.execRscRegShift c sf rn rd rs k rm s
  | .tstImm c rn sbz rot imm => Sys2Proof.Machine.execTstImm c rn sbz rot imm s
  | .tstShift c rn sbz amt k rm => Sys2Proof.Machine.execTstShift c rn sbz amt k rm s
  | .tstRegShift c rn sbz rs k rm => Sys2Proof.Machine.execTstRegShift c rn sbz rs k rm s
  | .teqImm c rn sbz rot imm => Sys2Proof.Machine.execTeqImm c rn sbz rot imm s
  | .teqShift c rn sbz amt k rm => Sys2Proof.Machine.execTeqShift c rn sbz amt k rm s
  | .teqRegShift c rn sbz rs k rm => Sys2Proof.Machine.execTeqRegShift c rn sbz rs k rm s
  | .cmpImm c rn sbz rot imm => Sys2Proof.Machine.execCmpImm c rn sbz rot imm s
  | .cmpShift c rn sbz amt k rm => Sys2Proof.Machine.execCmpShift c rn sbz amt k rm s
  | .cmpRegShift c rn sbz rs k rm => Sys2Proof.Machine.execCmpRegShift c rn sbz rs k rm s
  | .cmnImm c rn sbz rot imm => Sys2Proof.Machine.execCmnImm c rn sbz rot imm s
  | .cmnShift c rn sbz amt k rm => Sys2Proof.Machine.execCmnShift c rn sbz amt k rm s
  | .cmnRegShift c rn sbz rs k rm => Sys2Proof.Machine.execCmnRegShift c rn sbz rs k rm s
  | .orrImm c sf rn rd rot imm => Sys2Proof.Machine.execOrrImm c sf rn rd rot imm s
  | .orrShift c sf rn rd amt k rm => Sys2Proof.Machine.execOrrShift c sf rn rd amt k rm s
  | .orrRegShift c sf rn rd rs k rm => Sys2Proof.Machine.execOrrRegShift c sf rn rd rs k rm s
  | .movImm c sf sbz rd rot imm => Sys2Proof.Machine.execMovImm c sf sbz rd rot imm s
  | .movShift c sf sbz rd amt k rm => Sys2Proof.Machine.execMovShift c sf sbz rd amt k rm s
  | .movRegShift c sf sbz rd rs k rm => Sys2Proof.Machine.execMovRegShift c sf sbz rd rs k rm s
  | .bicImm c sf rn rd rot imm => Sys2Proof.Machine.execBicImm c sf rn rd rot imm s
  | .bicShift c sf rn rd amt k rm => Sys2Proof.Machine.execBicShift c sf rn rd amt k rm s
  | .bicRegShift c sf rn rd rs k rm => Sys2Proof.Machine.execBicRegShift c sf rn rd rs k rm s
  | .mvnImm c sf sbz rd rot imm => Sys2Proof.Machine.execMvnImm c sf sbz rd rot imm s
  | .mvnShift c sf sbz rd amt k rm => Sys2Proof.Machine.execMvnShift c sf sbz rd amt k rm s
  | .mvnRegShift c sf sbz rd rs k rm => Sys2Proof.Machine.execMvnRegShift c sf sbz rd rs k rm s
  | .mrs c r sbo rd sbzHi sbzLo => Sys2Proof.Machine.execMrs c r sbo rd sbzHi sbzLo s
  | .msrReg c r mask sbo sbz rm => Sys2Proof.Machine.execMsrReg c r mask sbo sbz rm s
  | .msrImm c r mask sbo rot imm => Sys2Proof.Machine.execMsrImm c r mask sbo rot imm s
  | .mul c sf rd sbz rs rm => Sys2Proof.Machine.execMul c sf rd sbz rs rm s
  | .mla c sf rd rn rs rm => Sys2Proof.Machine.execMla c sf rd rn rs rm s
  | .umull c sf rdHi rdLo rs rm => Sys2Proof.Machine.execUmull c sf rdHi rdLo rs rm s
  | .umlal c sf rdHi rdLo rs rm => Sys2Proof.Machine.execUmlal c sf rdHi rdLo rs rm s
  | .smull c sf rdHi rdLo rs rm => Sys2Proof.Machine.execSmull c sf rdHi rdLo rs rm s
  | .smlal c sf rdHi rdLo rs rm => Sys2Proof.Machine.execSmlal c sf rdHi rdLo rs rm s
  | .swp c rn rd sbz rm => Sys2Proof.Machine.execSwp c rn rd sbz rm s
  | .swpb c rn rd sbz rm => Sys2Proof.Machine.execSwpb c rn rd sbz rm s
  | .bx c sbo rm => Sys2Proof.Machine.execBx c sbo rm s
  | .strImmPre c u w rn rd off => Sys2Proof.Machine.execStrImmPre c u w rn rd off s
  | .strImmPost c u rn rd off => Sys2Proof.Machine.execStrImmPost c u rn rd off s
  | .strRegPre c u w rn rd amt k rm => Sys2Proof.Machine.execStrRegPre c u w rn rd amt k rm s
  | .strRegPost c u rn rd amt k rm => Sys2Proof.Machine.execStrRegPost c u rn rd amt k rm s
  | .strbImmPre c u w rn rd off => Sys2Proof.Machine.execStrbImmPre c u w rn rd off s
  | .strbImmPost c u rn rd off => Sys2Proof.Machine.execStrbImmPost c u rn rd off s
  | .strbRegPre c u w rn rd amt k rm => Sys2Proof.Machine.execStrbRegPre c u w rn rd amt k rm s
  | .strbRegPost c u rn rd amt k rm => Sys2Proof.Machine.execStrbRegPost c u rn rd amt k rm s
  | .ldrImmPre c u w rn rd off => Sys2Proof.Machine.execLdrImmPre c u w rn rd off s
  | .ldrImmPost c u rn rd off => Sys2Proof.Machine.execLdrImmPost c u rn rd off s
  | .ldrRegPre c u w rn rd amt k rm => Sys2Proof.Machine.execLdrRegPre c u w rn rd amt k rm s
  | .ldrRegPost c u rn rd amt k rm => Sys2Proof.Machine.execLdrRegPost c u rn rd amt k rm s
  | .ldrbImmPre c u w rn rd off => Sys2Proof.Machine.execLdrbImmPre c u w rn rd off s
  | .ldrbImmPost c u rn rd off => Sys2Proof.Machine.execLdrbImmPost c u rn rd off s
  | .ldrbRegPre c u w rn rd amt k rm => Sys2Proof.Machine.execLdrbRegPre c u w rn rd amt k rm s
  | .ldrbRegPost c u rn rd amt k rm => Sys2Proof.Machine.execLdrbRegPost c u rn rd amt k rm s
  | .strtImm c u rn rd off => Sys2Proof.Machine.execStrtImm c u rn rd off s
  | .strtReg c u rn rd amt k rm => Sys2Proof.Machine.execStrtReg c u rn rd amt k rm s
  | .strbtImm c u rn rd off => Sys2Proof.Machine.execStrbtImm c u rn rd off s
  | .strbtReg c u rn rd amt k rm => Sys2Proof.Machine.execStrbtReg c u rn rd amt k rm s
  | .ldrtImm c u rn rd off => Sys2Proof.Machine.execLdrtImm c u rn rd off s
  | .ldrtReg c u rn rd amt k rm => Sys2Proof.Machine.execLdrtReg c u rn rd amt k rm s
  | .ldrbtImm c u rn rd off => Sys2Proof.Machine.execLdrbtImm c u rn rd off s
  | .ldrbtReg c u rn rd amt k rm => Sys2Proof.Machine.execLdrbtReg c u rn rd amt k rm s
  | .strhReg c p u w rn rd sbz rm => Sys2Proof.Machine.execStrhReg c p u w rn rd sbz rm s
  | .strhImm c p u w rn rd hi lo => Sys2Proof.Machine.execStrhImm c p u w rn rd hi lo s
  | .ldrhReg c p u w rn rd sbz rm => Sys2Proof.Machine.execLdrhReg c p u w rn rd sbz rm s
  | .ldrhImm c p u w rn rd hi lo => Sys2Proof.Machine.execLdrhImm c p u w rn rd hi lo s
  | .ldrsbReg c p u w rn rd sbz rm => Sys2Proof.Machine.execLdrsbReg c p u w rn rd sbz rm s
  | .ldrsbImm c p u w rn rd hi lo => Sys2Proof.Machine.execLdrsbImm c p u w rn rd hi lo s
  | .ldrshReg c p u w rn rd sbz rm => Sys2Proof.Machine.execLdrshReg c p u w rn rd sbz rm s
  | .ldrshImm c p u w rn rd hi lo => Sys2Proof.Machine.execLdrshImm c p u w rn rd hi lo s
  | .reservedLsh10Reg c p u w rn rd hi lo => Sys2Proof.Machine.execReservedLsh10Reg c p u w rn rd hi lo s
  | .reservedLsh10Imm c p u w rn rd hi lo => Sys2Proof.Machine.execReservedLsh10Imm c p u w rn rd hi lo s
  | .reservedLsh11Reg c p u w rn rd hi lo => Sys2Proof.Machine.execReservedLsh11Reg c p u w rn rd hi lo s
  | .reservedLsh11Imm c p u w rn rd hi lo => Sys2Proof.Machine.execReservedLsh11Imm c p u w rn rd hi lo s
  | .stmda c w rn rl => Sys2Proof.Machine.execStmda c w rn rl s
  | .stmia c w rn rl => Sys2Proof.Machine.execStmia c w rn rl s
  | .stmdb c w rn rl => Sys2Proof.Machine.execStmdb c w rn rl s
  | .stmib c w rn rl => Sys2Proof.Machine.execStmib c w rn rl s
  | .ldmda c w rn rl => Sys2Proof.Machine.execLdmda c w rn rl s
  | .ldmia c w rn rl => Sys2Proof.Machine.execLdmia c w rn rl s
  | .ldmdb c w rn rl => Sys2Proof.Machine.execLdmdb c w rn rl s
  | .ldmib c w rn rl => Sys2Proof.Machine.execLdmib c w rn rl s
  | .stmdaUser c w rn rl => Sys2Proof.Machine.execStmdaUser c w rn rl s
  | .stmiaUser c w rn rl => Sys2Proof.Machine.execStmiaUser c w rn rl s
  | .stmdbUser c w rn rl => Sys2Proof.Machine.execStmdbUser c w rn rl s
  | .stmibUser c w rn rl => Sys2Proof.Machine.execStmibUser c w rn rl s
  | .ldmdaUser c w rn rl => Sys2Proof.Machine.execLdmdaUser c w rn rl s
  | .ldmiaUser c w rn rl => Sys2Proof.Machine.execLdmiaUser c w rn rl s
  | .ldmdbUser c w rn rl => Sys2Proof.Machine.execLdmdbUser c w rn rl s
  | .ldmibUser c w rn rl => Sys2Proof.Machine.execLdmibUser c w rn rl s
  | .ldmdaRet c w rn rl => Sys2Proof.Machine.execLdmdaRet c w rn rl s
  | .ldmiaRet c w rn rl => Sys2Proof.Machine.execLdmiaRet c w rn rl s
  | .ldmdbRet c w rn rl => Sys2Proof.Machine.execLdmdbRet c w rn rl s
  | .ldmibRet c w rn rl => Sys2Proof.Machine.execLdmibRet c w rn rl s
  | .b c off => Sys2Proof.Machine.execB c off s
  | .bl c off => Sys2Proof.Machine.execBl c off s
  | .swi c imm => Sys2Proof.Machine.execSwi c imm s
  | .cdp c op1 crn crd cp op2 crm => Sys2Proof.Machine.execCdp c op1 crn crd cp op2 crm s
  | .ldc c p u n w rn crd cp off => Sys2Proof.Machine.execLdc c p u n w rn crd cp off s
  | .stc c p u n w rn crd cp off => Sys2Proof.Machine.execStc c p u n w rn crd cp off s
  | .mcr c op1 crn rd cp op2 crm => Sys2Proof.Machine.execMcr c op1 crn rd cp op2 crm s
  | .mrc c op1 crn rd cp op2 crm => Sys2Proof.Machine.execMrc c op1 crn rd cp op2 crm s
  | .undMul c body => Sys2Proof.Machine.execUndMul c body s
  | .undMisc1 c body => Sys2Proof.Machine.execUndMisc1 c body s
  | .undMisc23 c body => Sys2Proof.Machine.execUndMisc23 c body s
  | .undMisc45 c body => Sys2Proof.Machine.execUndMisc45 c body s
  | .undMiscHigh c body => Sys2Proof.Machine.execUndMiscHigh c body s
  | .undSwapOdd c body => Sys2Proof.Machine.execUndSwapOdd c body s
  | .undSwapW c body => Sys2Proof.Machine.execUndSwapW c body s
  | .undMisc1Row16 c body => Sys2Proof.Machine.execUndMisc1Row16 c body s
  | .undSwapHigh c body => Sys2Proof.Machine.execUndSwapHigh c body s
  | .undPsrImm c body => Sys2Proof.Machine.execUndPsrImm c body s
  | .undMedia c body => Sys2Proof.Machine.execUndMedia c body s
  | .tLslImm off rs rd => Sys2Proof.Machine.execTLslImm off rs rd s
  | .tLsrImm off rs rd => Sys2Proof.Machine.execTLsrImm off rs rd s
  | .tAsrImm off rs rd => Sys2Proof.Machine.execTAsrImm off rs rd s
  | .tAddReg rn rs rd => Sys2Proof.Machine.execTAddReg rn rs rd s
  | .tSubReg rn rs rd => Sys2Proof.Machine.execTSubReg rn rs rd s
  | .tAddImm3 off rs rd => Sys2Proof.Machine.execTAddImm3 off rs rd s
  | .tSubImm3 off rs rd => Sys2Proof.Machine.execTSubImm3 off rs rd s
  | .tMovImm8 rd off => Sys2Proof.Machine.execTMovImm8 rd off s
  | .tCmpImm8 rd off => Sys2Proof.Machine.execTCmpImm8 rd off s
  | .tAddImm8 rd off => Sys2Proof.Machine.execTAddImm8 rd off s
  | .tSubImm8 rd off => Sys2Proof.Machine.execTSubImm8 rd off s
  | .tAnd rs rd => Sys2Proof.Machine.execTAnd rs rd s
  | .tEor rs rd => Sys2Proof.Machine.execTEor rs rd s
  | .tLsl rs rd => Sys2Proof.Machine.execTLsl rs rd s
  | .tLsr rs rd => Sys2Proof.Machine.execTLsr rs rd s
  | .tAsr rs rd => Sys2Proof.Machine.execTAsr rs rd s
  | .tAdc rs rd => Sys2Proof.Machine.execTAdc rs rd s
  | .tSbc rs rd => Sys2Proof.Machine.execTSbc rs rd s
  | .tRor rs rd => Sys2Proof.Machine.execTRor rs rd s
  | .tTst rs rd => Sys2Proof.Machine.execTTst rs rd s
  | .tNeg rs rd => Sys2Proof.Machine.execTNeg rs rd s
  | .tCmp rs rd => Sys2Proof.Machine.execTCmp rs rd s
  | .tCmn rs rd => Sys2Proof.Machine.execTCmn rs rd s
  | .tOrr rs rd => Sys2Proof.Machine.execTOrr rs rd s
  | .tMul rs rd => Sys2Proof.Machine.execTMul rs rd s
  | .tBic rs rd => Sys2Proof.Machine.execTBic rs rd s
  | .tMvn rs rd => Sys2Proof.Machine.execTMvn rs rd s
  | .tAddHi h1 h2 rs rd => Sys2Proof.Machine.execTAddHi h1 h2 rs rd s
  | .tCmpHi h1 h2 rs rd => Sys2Proof.Machine.execTCmpHi h1 h2 rs rd s
  | .tMovHi h1 h2 rs rd => Sys2Proof.Machine.execTMovHi h1 h2 rs rd s
  | .tBx h2 rs sbz => Sys2Proof.Machine.execTBx h2 rs sbz s
  | .tBxH1 h2 rs sbz => Sys2Proof.Machine.execTBxH1 h2 rs sbz s
  | .tLdrPc rd word8 => Sys2Proof.Machine.execTLdrPc rd word8 s
  | .tStrReg ro rb rd => Sys2Proof.Machine.execTStrReg ro rb rd s
  | .tStrhReg ro rb rd => Sys2Proof.Machine.execTStrhReg ro rb rd s
  | .tStrbReg ro rb rd => Sys2Proof.Machine.execTStrbReg ro rb rd s
  | .tLdsbReg ro rb rd => Sys2Proof.Machine.execTLdsbReg ro rb rd s
  | .tLdrReg ro rb rd => Sys2Proof.Machine.execTLdrReg ro rb rd s
  | .tLdrhReg ro rb rd => Sys2Proof.Machine.execTLdrhReg ro rb rd s
  | .tLdrbReg ro rb rd => Sys2Proof.Machine.execTLdrbReg ro rb rd s
  | .tLdshReg ro rb rd => Sys2Proof.Machine.execTLdshReg ro rb rd s
  | .tStrImm off rb rd => Sys2Proof.Machine.execTStrImm off rb rd s
  | .tLdrImm off rb rd => Sys2Proof.Machine.execTLdrImm off rb rd s
  | .tStrbImm off rb rd => Sys2Proof.Machine.execTStrbImm off rb rd s
  | .tLdrbImm off rb rd => Sys2Proof.Machine.execTLdrbImm off rb rd s
  | .tStrhImm off rb rd => Sys2Proof.Machine.execTStrhImm off rb rd s
  | .tLdrhImm off rb rd => Sys2Proof.Machine.execTLdrhImm off rb rd s
  | .tStrSp rd word8 => Sys2Proof.Machine.execTStrSp rd word8 s
  | .tLdrSp rd word8 => Sys2Proof.Machine.execTLdrSp rd word8 s
  | .tAddPc rd word8 => Sys2Proof.Machine.execTAddPc rd word8 s
  | .tAddSp rd word8 => Sys2Proof.Machine.execTAddSp rd word8 s
  | .tIncSp word7 => Sys2Proof.Machine.execTIncSp word7 s
  | .tDecSp word7 => Sys2Proof.Machine.execTDecSp word7 s
  | .tPush r rl => Sys2Proof.Machine.execTPush r rl s
  | .tPop r rl => Sys2Proof.Machine.execTPop r rl s
  | .tStmia rb rl => Sys2Proof.Machine.execTStmia rb rl s
  | .tLdmia rb rl => Sys2Proof.Machine.execTLdmia rb rl s
  | .tBeq off => Sys2Proof.Machine.execTBeq off s
  | .tBne off => Sys2Proof.Machine.execTBne off s
  | .tBcs off => Sys2Proof.Machine.execTBcs off s
  | .tBcc off => Sys2Proof.Machine.execTBcc off s
  | .tBmi off => Sys2Proof.Machine.execTBmi off s
  | .tBpl off => Sys2Proof.Machine.execTBpl off s
  | .tBvs off => Sys2Proof.Machine.execTBvs off s
  | .tBvc off => Sys2Proof.Machine.execTBvc off s
  | .tBhi off => Sys2Proof.Machine.execTBhi off s
  | .tBls off => Sys2Proof.Machine.execTBls off s
  | .tBge off => Sys2Proof.Machine.execTBge off s
  | .tBlt off => Sys2Proof.Machine.execTBlt off s
  | .tBgt off => Sys2Proof.Machine.execTBgt off s
  | .tBle off => Sys2Proof.Machine.execTBle off s
  | .tSwi imm => Sys2Proof.Machine.execTSwi imm s
  | .tB off => Sys2Proof.Machine.execTB off s
  | .tBlHigh off => Sys2Proof.Machine.execTBlHigh off s
  | .tBlLow off => Sys2Proof.Machine.execTBlLow off s
  | .tUndB1 bits => Sys2Proof.Machine.execTUndB1 bits s
  | .tUndB2 bits => Sys2Proof.Machine.execTUndB2 bits s
  | .tUndB6 bits => Sys2Proof.Machine.execTUndB6 bits s
  | .tUndB8 bits => Sys2Proof.Machine.execTUndB8 bits s
  | .tUndBe bits => Sys2Proof.Machine.execTUndBe bits s
  | .tUndDe bits => Sys2Proof.Machine.execTUndDe bits s
  | .tUndE8 bits => Sys2Proof.Machine.execTUndE8 bits s

end Sys2Proof.Machine
end

