-- ==== Sys2Proof/Decode.lean ====
section
/-! DEFINITION. The decoders (30_encoding.md R120 to R161), total on every opcode, the byte-level decoder, which
rejects by name, and after them the encoder, written from the same formats. -/

namespace Sys2Proof

/-! ## The codes of the small enumerations -/

/-- The condition a 4-bit field names (R186, R187). -/
def Cond.ofBits (b : BitVec 4) : Cond :=
  match b.toNat with
  | 0 => .eq | 1 => .ne | 2 => .cs | 3 => .cc | 4 => .mi | 5 => .pl | 6 => .vs | 7 => .vc
  | 8 => .hi | 9 => .ls | 10 => .ge | 11 => .lt | 12 => .gt | 13 => .le | 14 => .al | _ => .nv

/-- The field of a condition (R186). -/
def Cond.bits : Cond → BitVec 4
  | .eq => 0 | .ne => 1 | .cs => 2 | .cc => 3 | .mi => 4 | .pl => 5 | .vs => 6 | .vc => 7
  | .hi => 8 | .ls => 9 | .ge => 10 | .lt => 11 | .gt => 12 | .le => 13 | .al => 14 | .nv => 15

/-- The shift type a 2-bit field names (R126). -/
def ShiftKind.ofBits (b : BitVec 2) : ShiftKind :=
  match b.toNat with
  | 0 => .lsl | 1 => .lsr | 2 => .asr | _ => .ror

/-- The field of a shift type (R126). -/
def ShiftKind.bits : ShiftKind → BitVec 2
  | .lsl => 0 | .lsr => 1 | .asr => 2 | .ror => 3

/-- The operation a 4-bit data-processing opcode names (R128). -/
def DpOp.ofBits (b : BitVec 4) : DpOp :=
  match b.toNat with
  | 0 => .and | 1 => .eor | 2 => .sub | 3 => .rsb | 4 => .add | 5 => .adc | 6 => .sbc | 7 => .rsc | 8 => .tst | 9 => .teq | 10 => .cmp | 11 => .cmn | 12 => .orr | 13 => .mov | 14 => .bic | _ => .mvn

/-- The opcode of a data-processing operation (R128). -/
def DpOp.bits : DpOp → BitVec 4
  | .and => 0 | .eor => 1 | .sub => 2 | .rsb => 3 | .add => 4 | .adc => 5 | .sbc => 6 | .rsc => 7 | .tst => 8 | .teq => 9 | .cmp => 10 | .cmn => 11 | .orr => 12 | .mov => 13 | .bic => 14 | .mvn => 15

/-! ## The fields of an ARM opcode -/

/-- An ARM opcode cut at the boundaries of its formats: `row` and `col` are the dispatch index (R121), the
others the nibbles the formats name Rn, Rd, Rs and Rm. -/
structure ArmFields where
  cond : BitVec 4
  row : BitVec 8
  rn : BitVec 4
  rd : BitVec 4
  rs : BitVec 4
  col : BitVec 4
  rm : BitVec 4
deriving DecidableEq, Repr

/-- The fields of a word. -/
def ArmFields.ofWord (w : Word) : ArmFields where
  cond := w.extractLsb' 28 4
  row := w.extractLsb' 20 8
  rn := w.extractLsb' 16 4
  rd := w.extractLsb' 12 4
  rs := w.extractLsb' 8 4
  col := w.extractLsb' 4 4
  rm := w.extractLsb' 0 4

/-- The word with these fields. -/
def ArmFields.toWord (f : ArmFields) : Word :=
  f.cond ++ f.row ++ f.rn ++ f.rd ++ f.rs ++ f.col ++ f.rm

/-- op[11:7], the immediate shift amount (R126). -/
def ArmFields.shiftImm (f : ArmFields) : BitVec 5 := f.rs ++ f.col.extractLsb' 3 1

/-- op[6:5], the shift type (R126). -/
def ArmFields.shift (f : ArmFields) : ShiftKind := ShiftKind.ofBits (f.col.extractLsb' 1 2)

/-- op[7:0], an 8-bit immediate (R125). -/
def ArmFields.imm8 (f : ArmFields) : Byte := f.col ++ f.rm

/-- op[11:0], a 12-bit offset (R133). -/
def ArmFields.offset12 (f : ArmFields) : BitVec 12 := f.rs ++ f.col ++ f.rm

/-- op[15:0], a register list (R135). -/
def ArmFields.list16 (f : ArmFields) : BitVec 16 := f.rd ++ f.rs ++ f.col ++ f.rm

/-- op[14:0]. -/
def ArmFields.list15 (f : ArmFields) : BitVec 15 := f.list16.setWidth 15

/-- op[23:0] (R136, R138). -/
def ArmFields.low24 (f : ArmFields) : BitVec 24 :=
  f.row.extractLsb' 0 4 ++ f.rn ++ f.rd ++ f.rs ++ f.col ++ f.rm

/-- op[27:0]. -/
def ArmFields.low28 (f : ArmFields) : BitVec 28 := f.row ++ f.rn ++ f.rd ++ f.rs ++ f.col ++ f.rm

/-! ## The ARM decoder -/

/-- The data-processing instruction of an operation in the immediate form (R125).
A test operation keeps no S bit and takes op[15:12] as its SBZ field; MOV and MVN take op[19:16] as theirs (R164). -/
def DpOp.instrImm (op : DpOp) (c : Cond) (sf : Bool) (rn rd rot : BitVec 4) (imm : Byte) : Instr :=
  match op with
  | .and => .andImm c sf rn rd rot imm
  | .eor => .eorImm c sf rn rd rot imm
  | .sub => .subImm c sf rn rd rot imm
  | .rsb => .rsbImm c sf rn rd rot imm
  | .add => .addImm c sf rn rd rot imm
  | .adc => .adcImm c sf rn rd rot imm
  | .sbc => .sbcImm c sf rn rd rot imm
  | .rsc => .rscImm c sf rn rd rot imm
  | .tst => .tstImm c rn rd rot imm
  | .teq => .teqImm c rn rd rot imm
  | .cmp => .cmpImm c rn rd rot imm
  | .cmn => .cmnImm c rn rd rot imm
  | .orr => .orrImm c sf rn rd rot imm
  | .mov => .movImm c sf rn rd rot imm
  | .bic => .bicImm c sf rn rd rot imm
  | .mvn => .mvnImm c sf rn rd rot imm

/-- The data-processing instruction of an operation in the immediate-shift form (R126).
A test operation keeps no S bit and takes op[15:12] as its SBZ field; MOV and MVN take op[19:16] as theirs (R164). -/
def DpOp.instrShift (op : DpOp) (c : Cond) (sf : Bool) (rn rd : RegNum) (amt : BitVec 5) (k : ShiftKind)
    (rm : RegNum) : Instr :=
  match op with
  | .and => .andShift c sf rn rd amt k rm
  | .eor => .eorShift c sf rn rd amt k rm
  | .sub => .subShift c sf rn rd amt k rm
  | .rsb => .rsbShift c sf rn rd amt k rm
  | .add => .addShift c sf rn rd amt k rm
  | .adc => .adcShift c sf rn rd amt k rm
  | .sbc => .sbcShift c sf rn rd amt k rm
  | .rsc => .rscShift c sf rn rd amt k rm
  | .tst => .tstShift c rn rd amt k rm
  | .teq => .teqShift c rn rd amt k rm
  | .cmp => .cmpShift c rn rd amt k rm
  | .cmn => .cmnShift c rn rd amt k rm
  | .orr => .orrShift c sf rn rd amt k rm
  | .mov => .movShift c sf rn rd amt k rm
  | .bic => .bicShift c sf rn rd amt k rm
  | .mvn => .mvnShift c sf rn rd amt k rm

/-- The data-processing instruction of an operation in the register-shift form (R127).
A test operation keeps no S bit and takes op[15:12] as its SBZ field; MOV and MVN take op[19:16] as theirs (R164). -/
def DpOp.instrRegShift (op : DpOp) (c : Cond) (sf : Bool) (rn rd rs : RegNum) (k : ShiftKind) (rm : RegNum) : Instr :=
  match op with
  | .and => .andRegShift c sf rn rd rs k rm
  | .eor => .eorRegShift c sf rn rd rs k rm
  | .sub => .subRegShift c sf rn rd rs k rm
  | .rsb => .rsbRegShift c sf rn rd rs k rm
  | .add => .addRegShift c sf rn rd rs k rm
  | .adc => .adcRegShift c sf rn rd rs k rm
  | .sbc => .sbcRegShift c sf rn rd rs k rm
  | .rsc => .rscRegShift c sf rn rd rs k rm
  | .tst => .tstRegShift c rn rd rs k rm
  | .teq => .teqRegShift c rn rd rs k rm
  | .cmp => .cmpRegShift c rn rd rs k rm
  | .cmn => .cmnRegShift c rn rd rs k rm
  | .orr => .orrRegShift c sf rn rd rs k rm
  | .mov => .movRegShift c sf rn rd rs k rm
  | .bic => .bicRegShift c sf rn rd rs k rm
  | .mvn => .mvnRegShift c sf rn rd rs k rm

/-- The undefined cells of R140 with row <= 0x1F, by the table's rows. -/
def undefLow (c : Cond) (row : BitVec 8) (col : BitVec 4) (body : BitVec 28) : Instr :=
  if col = 0x9 then
    if row < 0x10 then .undMul c body
    else if row.getLsbD 0 then .undSwapOdd c body
    else if row.getLsbD 1 then .undSwapW c body
    else .undSwapHigh c body
  else if col = 0x1 then
    if row = 0x16 then .undMisc1Row16 c body else .undMisc1 c body
  else if col.getLsbD 3 then .undMiscHigh c body
  else if col.getLsbD 1 then .undMisc23 c body
  else .undMisc45 c body

/-- The rows TST, TEQ, CMP and CMN have with S = 0: the PSR-transfer and miscellaneous space (R140). -/
def isTestRow (row : BitVec 8) : Bool :=
  row = 0x10 || row = 0x12 || row = 0x14 || row = 0x16

/-- Rows 0x00 to 0x1F with col[0] = 0: the immediate-shift form, MRS and MSR (R140). -/
def decodeImmShift (f : ArmFields) : Instr :=
  let c := Cond.ofBits f.cond
  if isTestRow f.row then
    if f.col = 0 then
      if f.row.getLsbD 1 then .msrReg c (f.row.getLsbD 2) f.rn f.rd f.rs f.rm
      else .mrs c (f.row.getLsbD 2) f.rn f.rd f.rs f.rm
    else undefLow c f.row f.col f.low28
  else
    (DpOp.ofBits (f.row.extractLsb' 1 4)).instrShift c (f.row.getLsbD 0) f.rn f.rd f.shiftImm f.shift f.rm

/-- Rows 0x00 to 0x1F with col in 1, 3, 5, 7: the register-shift form and BX (R140). -/
def decodeRegShift (f : ArmFields) : Instr :=
  let c := Cond.ofBits f.cond
  if isTestRow f.row then
    if f.row = 0x12 ∧ f.col = 0x1 then .bx c (f.rn ++ f.rd ++ f.rs) f.rm
    else undefLow c f.row f.col f.low28
  else
    (DpOp.ofBits (f.row.extractLsb' 1 4)).instrRegShift c (f.row.getLsbD 0) f.rn f.rd f.rs f.shift f.rm

/-- Rows 0x00 to 0x1F with col = 9: multiply and swap (R130, R131, R140). -/
def decodeMultiply (f : ArmFields) : Instr :=
  let c := Cond.ofBits f.cond
  let s := f.row.getLsbD 0
  if f.row ≤ 0x03 then
    if f.row.getLsbD 1 then .mla c s f.rn f.rd f.rs f.rm else .mul c s f.rn f.rd f.rs f.rm
  else if 0x08 ≤ f.row ∧ f.row ≤ 0x0F then
    match f.row.getLsbD 2, f.row.getLsbD 1 with
    | false, false => .umull c s f.rn f.rd f.rs f.rm
    | false, true => .umlal c s f.rn f.rd f.rs f.rm
    | true, false => .smull c s f.rn f.rd f.rs f.rm
    | true, true => .smlal c s f.rn f.rd f.rs f.rm
  else if f.row = 0x10 then .swp c f.rn f.rd f.rs f.rm
  else if f.row = 0x14 then .swpb c f.rn f.rd f.rs f.rm
  else undefLow c f.row f.col f.low28

/-- Rows 0x00 to 0x1F with col in 0xB, 0xD, 0xF: halfword and signed transfers (R134, R140). -/
def decodeHalfword (f : ArmFields) : Instr :=
  let c := Cond.ofBits f.cond
  let p := f.row.getLsbD 4
  let u := f.row.getLsbD 3
  let imm := f.row.getLsbD 2
  let w := f.row.getLsbD 1
  let l := f.row.getLsbD 0
  if f.col = 0xB then
    match l, imm with
    | false, false => .strhReg c p u w f.rn f.rd f.rs f.rm
    | false, true => .strhImm c p u w f.rn f.rd f.rs f.rm
    | true, false => .ldrhReg c p u w f.rn f.rd f.rs f.rm
    | true, true => .ldrhImm c p u w f.rn f.rd f.rs f.rm
  else if f.col = 0xD then
    match l, imm with
    | false, false => .reservedLsh10Reg c p u w f.rn f.rd f.rs f.rm
    | false, true => .reservedLsh10Imm c p u w f.rn f.rd f.rs f.rm
    | true, false => .ldrsbReg c p u w f.rn f.rd f.rs f.rm
    | true, true => .ldrsbImm c p u w f.rn f.rd f.rs f.rm
  else
    match l, imm with
    | false, false => .reservedLsh11Reg c p u w f.rn f.rd f.rs f.rm
    | false, true => .reservedLsh11Imm c p u w f.rn f.rd f.rs f.rm
    | true, false => .ldrshReg c p u w f.rn f.rd f.rs f.rm
    | true, true => .ldrshImm c p u w f.rn f.rd f.rs f.rm

/-- Rows 0x20 to 0x3F: the immediate form and MSR immediate (R140). -/
def decodeDpImm (f : ArmFields) : Instr :=
  let c := Cond.ofBits f.cond
  if f.row = 0x30 ∨ f.row = 0x34 then .undPsrImm c f.low28
  else if f.row = 0x32 ∨ f.row = 0x36 then .msrImm c (f.row.getLsbD 2) f.rn f.rd f.rs f.imm8
  else
    (DpOp.ofBits (f.row.extractLsb' 1 4)).instrImm c (f.row.getLsbD 0) f.rn f.rd f.rs f.imm8

/-- Rows 0x40 to 0x5F: single data transfer, immediate offset (R133). -/
def decodeSdtImm (f : ArmFields) : Instr :=
  let c := Cond.ofBits f.cond
  let u := f.row.getLsbD 3
  let w := f.row.getLsbD 1
  let off := f.offset12
  match f.row.getLsbD 4, w, f.row.getLsbD 2, f.row.getLsbD 0 with
  | true, _, false, false => .strImmPre c u w f.rn f.rd off
  | true, _, true, false => .strbImmPre c u w f.rn f.rd off
  | true, _, false, true => .ldrImmPre c u w f.rn f.rd off
  | true, _, true, true => .ldrbImmPre c u w f.rn f.rd off
  | false, false, false, false => .strImmPost c u f.rn f.rd off
  | false, false, true, false => .strbImmPost c u f.rn f.rd off
  | false, false, false, true => .ldrImmPost c u f.rn f.rd off
  | false, false, true, true => .ldrbImmPost c u f.rn f.rd off
  | false, true, false, false => .strtImm c u f.rn f.rd off
  | false, true, true, false => .strbtImm c u f.rn f.rd off
  | false, true, false, true => .ldrtImm c u f.rn f.rd off
  | false, true, true, true => .ldrbtImm c u f.rn f.rd off

/-- Rows 0x60 to 0x7F: single data transfer, register offset, and the undefined space op[4] = 1 (R133, R139). -/
def decodeSdtReg (f : ArmFields) : Instr :=
  let c := Cond.ofBits f.cond
  let u := f.row.getLsbD 3
  let w := f.row.getLsbD 1
  let amt := f.shiftImm
  let k := f.shift
  if f.col.getLsbD 0 then .undMedia c f.low28
  else
    match f.row.getLsbD 4, w, f.row.getLsbD 2, f.row.getLsbD 0 with
    | true, _, false, false => .strRegPre c u w f.rn f.rd amt k f.rm
    | true, _, true, false => .strbRegPre c u w f.rn f.rd amt k f.rm
    | true, _, false, true => .ldrRegPre c u w f.rn f.rd amt k f.rm
    | true, _, true, true => .ldrbRegPre c u w f.rn f.rd amt k f.rm
    | false, false, false, false => .strRegPost c u f.rn f.rd amt k f.rm
    | false, false, true, false => .strbRegPost c u f.rn f.rd amt k f.rm
    | false, false, false, true => .ldrRegPost c u f.rn f.rd amt k f.rm
    | false, false, true, true => .ldrbRegPost c u f.rn f.rd amt k f.rm
    | false, true, false, false => .strtReg c u f.rn f.rd amt k f.rm
    | false, true, true, false => .strbtReg c u f.rn f.rd amt k f.rm
    | false, true, false, true => .ldrtReg c u f.rn f.rd amt k f.rm
    | false, true, true, true => .ldrbtReg c u f.rn f.rd amt k f.rm

/-- The addressing mode of P and U (R350). -/
def BlockMode.ofBits (p u : Bool) : BlockMode :=
  match p, u with
  | false, false => .da
  | false, true => .ia
  | true, false => .db
  | true, true => .ib

/-- STM, form 1 (R351) in an addressing mode. -/
def BlockMode.stm (m : BlockMode) (c : Cond) (w : Bool) (rn : RegNum) (rl : BitVec 16) : Instr :=
  match m with
  | .da => .stmda c w rn rl
  | .ia => .stmia c w rn rl
  | .db => .stmdb c w rn rl
  | .ib => .stmib c w rn rl

/-- LDM, form 1 (R352) in an addressing mode. -/
def BlockMode.ldm (m : BlockMode) (c : Cond) (w : Bool) (rn : RegNum) (rl : BitVec 16) : Instr :=
  match m with
  | .da => .ldmda c w rn rl
  | .ia => .ldmia c w rn rl
  | .db => .ldmdb c w rn rl
  | .ib => .ldmib c w rn rl

/-- STM, form 2 (R353) in an addressing mode. -/
def BlockMode.stmUser (m : BlockMode) (c : Cond) (w : Bool) (rn : RegNum) (rl : BitVec 16) : Instr :=
  match m with
  | .da => .stmdaUser c w rn rl
  | .ia => .stmiaUser c w rn rl
  | .db => .stmdbUser c w rn rl
  | .ib => .stmibUser c w rn rl

/-- LDM, form 2 (R354) in an addressing mode. -/
def BlockMode.ldmUser (m : BlockMode) (c : Cond) (w : Bool) (rn : RegNum) (rl : BitVec 15) : Instr :=
  match m with
  | .da => .ldmdaUser c w rn rl
  | .ia => .ldmiaUser c w rn rl
  | .db => .ldmdbUser c w rn rl
  | .ib => .ldmibUser c w rn rl

/-- LDM, form 3 (R355) in an addressing mode. -/
def BlockMode.ldmRet (m : BlockMode) (c : Cond) (w : Bool) (rn : RegNum) (rl : BitVec 15) : Instr :=
  match m with
  | .da => .ldmdaRet c w rn rl
  | .ia => .ldmiaRet c w rn rl
  | .db => .ldmdbRet c w rn rl
  | .ib => .ldmibRet c w rn rl

/-- Rows 0x80 to 0x9F: block data transfer (R135; op[15] tells LDM(2) from LDM(3), R354, R355). -/
def decodeBlock (f : ArmFields) : Instr :=
  let c := Cond.ofBits f.cond
  let m := BlockMode.ofBits (f.row.getLsbD 4) (f.row.getLsbD 3)
  let w := f.row.getLsbD 1
  match f.row.getLsbD 0, f.row.getLsbD 2, f.rd.getLsbD 3 with
  | false, false, _ => m.stm c w f.rn f.list16
  | true, false, _ => m.ldm c w f.rn f.list16
  | false, true, _ => m.stmUser c w f.rn f.list16
  | true, true, false => m.ldmUser c w f.rn f.list15
  | true, true, true => m.ldmRet c w f.rn f.list15

/-- Rows 0xC0 to 0xFF: coprocessor instructions and SWI (R137, R138). -/
def decodeCoprocSwi (f : ArmFields) : Instr :=
  let c := Cond.ofBits f.cond
  if f.row ≤ 0xDF then
    if f.row.getLsbD 0 then
      .ldc c (f.row.getLsbD 4) (f.row.getLsbD 3) (f.row.getLsbD 2) (f.row.getLsbD 1) f.rn f.rd f.rs f.imm8
    else
      .stc c (f.row.getLsbD 4) (f.row.getLsbD 3) (f.row.getLsbD 2) (f.row.getLsbD 1) f.rn f.rd f.rs f.imm8
  else if f.row ≤ 0xEF then
    if f.col.getLsbD 0 then
      if f.row.getLsbD 0 then
        .mrc c (f.row.extractLsb' 1 3) f.rn f.rd f.rs (f.col.extractLsb' 1 3) f.rm
      else
        .mcr c (f.row.extractLsb' 1 3) f.rn f.rd f.rs (f.col.extractLsb' 1 3) f.rm
    else
      .cdp c (f.row.extractLsb' 0 4) f.rn f.rd f.rs (f.col.extractLsb' 1 3) f.rm
  else .swi c f.low24

/-- The ARM dispatch table (R140), with the fields of the selected format. -/
def decodeArmFields (f : ArmFields) : Instr :=
  if f.row ≤ 0x1F then
    if f.col.getLsbD 0 = false then decodeImmShift f
    else if f.col.getLsbD 3 = false then decodeRegShift f
    else if f.col = 0x9 then decodeMultiply f
    else decodeHalfword f
  else if f.row ≤ 0x3F then decodeDpImm f
  else if f.row ≤ 0x5F then decodeSdtImm f
  else if f.row ≤ 0x7F then decodeSdtReg f
  else if f.row ≤ 0x9F then decodeBlock f
  else if f.row ≤ 0xAF then .b (Cond.ofBits f.cond) f.low24
  else if f.row ≤ 0xBF then .bl (Cond.ofBits f.cond) f.low24
  else decodeCoprocSwi f

/-- The instruction an ARM opcode is: every word is one (R121, R140, R195). -/
def decodeArm (w : Word) : Instr := decodeArmFields (ArmFields.ofWord w)

/-! ## The THUMB decoder -/

/-- Format 4, by op[9:6] (R144). -/
def decodeThumbAlu (h : Half) : Instr :=
  let rs := h.extractLsb' 3 3
  let rd := h.extractLsb' 0 3
  match (h.extractLsb' 6 4).toNat with
  | 0 => .tAnd rs rd
  | 1 => .tEor rs rd
  | 2 => .tLsl rs rd
  | 3 => .tLsr rs rd
  | 4 => .tAsr rs rd
  | 5 => .tAdc rs rd
  | 6 => .tSbc rs rd
  | 7 => .tRor rs rd
  | 8 => .tTst rs rd
  | 9 => .tNeg rs rd
  | 10 => .tCmp rs rd
  | 11 => .tCmn rs rd
  | 12 => .tOrr rs rd
  | 13 => .tMul rs rd
  | 14 => .tBic rs rd
  | _ => .tMvn rs rd

/-- Format 5, by op[9:8] (R145). -/
def decodeThumbHi (h : Half) : Instr :=
  let h1 := h.getLsbD 7
  let h2 := h.getLsbD 6
  let rs := h.extractLsb' 3 3
  let rd := h.extractLsb' 0 3
  match (h.extractLsb' 8 2).toNat with
  | 0 => .tAddHi h1 h2 rs rd
  | 1 => .tCmpHi h1 h2 rs rd
  | 2 => .tMovHi h1 h2 rs rd
  | _ => if h1 then .tBxH1 h2 rs rd else .tBx h2 rs rd

/-- Formats 7 and 8, by op[11:9] (R147, R148). -/
def decodeThumbReg (h : Half) : Instr :=
  let ro := h.extractLsb' 6 3
  let rb := h.extractLsb' 3 3
  let rd := h.extractLsb' 0 3
  match (h.extractLsb' 9 3).toNat with
  | 0 => .tStrReg ro rb rd
  | 1 => .tStrhReg ro rb rd
  | 2 => .tStrbReg ro rb rd
  | 3 => .tLdsbReg ro rb rd
  | 4 => .tLdrReg ro rb rd
  | 5 => .tLdrhReg ro rb rd
  | 6 => .tLdrbReg ro rb rd
  | _ => .tLdshReg ro rb rd

/-- Format 16, by op[11:8] (R156); 1110 is undefined (R160) and 1111 is SWI (R157). -/
def decodeThumbCond (h : Half) : Instr :=
  let off := h.extractLsb' 0 8
  match (h.extractLsb' 8 4).toNat with
  | 0 => .tBeq off
  | 1 => .tBne off
  | 2 => .tBcs off
  | 3 => .tBcc off
  | 4 => .tBmi off
  | 5 => .tBpl off
  | 6 => .tBvs off
  | 7 => .tBvc off
  | 8 => .tBhi off
  | 9 => .tBls off
  | 10 => .tBge off
  | 11 => .tBlt off
  | 12 => .tBgt off
  | 13 => .tBle off
  | 14 => .tUndDe off
  | _ => .tSwi off

/-- The 1011 space: formats 13 and 14 and the undefined indices (R153, R154, R160). -/
def decodeThumbMisc (h : Half) : Instr :=
  match (h.extractLsb' 8 4).toNat with
  | 0 => if h.getLsbD 7 then .tDecSp (h.extractLsb' 0 7) else .tIncSp (h.extractLsb' 0 7)
  | 1 => .tUndB1 (h.extractLsb' 0 8)
  | 2 => .tUndB2 (h.extractLsb' 0 9)
  | 3 => .tUndB2 (h.extractLsb' 0 9)
  | 4 => .tPush false (h.extractLsb' 0 8)
  | 5 => .tPush true (h.extractLsb' 0 8)
  | 6 => .tUndB6 (h.extractLsb' 0 9)
  | 7 => .tUndB6 (h.extractLsb' 0 9)
  | 12 => .tPop false (h.extractLsb' 0 8)
  | 13 => .tPop true (h.extractLsb' 0 8)
  | 14 => .tUndBe (h.extractLsb' 0 9)
  | 15 => .tUndBe (h.extractLsb' 0 9)
  | _ => .tUndB8 (h.extractLsb' 0 10)

/-- The THUMB dispatch table (R161), by op[15:11] and then within each format: every halfword is an
instruction. -/
def decodeThumb (h : Half) : Instr :=
  let lo3 := h.extractLsb' 0 3
  let mid3 := h.extractLsb' 3 3
  let hi3 := h.extractLsb' 6 3
  let off5 := h.extractLsb' 6 5
  let rd8 := h.extractLsb' 8 3
  let byte := h.extractLsb' 0 8
  let off11 := h.extractLsb' 0 11
  match (h.extractLsb' 11 5).toNat with
  | 0 => .tLslImm off5 mid3 lo3
  | 1 => .tLsrImm off5 mid3 lo3
  | 2 => .tAsrImm off5 mid3 lo3
  | 3 =>
    match h.getLsbD 10, h.getLsbD 9 with
    | false, false => .tAddReg hi3 mid3 lo3
    | false, true => .tSubReg hi3 mid3 lo3
    | true, false => .tAddImm3 hi3 mid3 lo3
    | true, true => .tSubImm3 hi3 mid3 lo3
  | 4 => .tMovImm8 rd8 byte
  | 5 => .tCmpImm8 rd8 byte
  | 6 => .tAddImm8 rd8 byte
  | 7 => .tSubImm8 rd8 byte
  | 8 => if h.getLsbD 10 then decodeThumbHi h else decodeThumbAlu h
  | 9 => .tLdrPc rd8 byte
  | 10 => decodeThumbReg h
  | 11 => decodeThumbReg h
  | 12 => .tStrImm off5 mid3 lo3
  | 13 => .tLdrImm off5 mid3 lo3
  | 14 => .tStrbImm off5 mid3 lo3
  | 15 => .tLdrbImm off5 mid3 lo3
  | 16 => .tStrhImm off5 mid3 lo3
  | 17 => .tLdrhImm off5 mid3 lo3
  | 18 => .tStrSp rd8 byte
  | 19 => .tLdrSp rd8 byte
  | 20 => .tAddPc rd8 byte
  | 21 => .tAddSp rd8 byte
  | 22 => decodeThumbMisc h
  | 23 => decodeThumbMisc h
  | 24 => .tStmia rd8 byte
  | 25 => .tLdmia rd8 byte
  | 26 => decodeThumbCond h
  | 27 => decodeThumbCond h
  | 28 => .tB off11
  | 29 => .tUndE8 off11
  | 30 => .tBlHigh off11
  | _ => .tBlLow off11

/-! ## Opcodes and bytes -/

/-- An opcode of either instruction set (R120). -/
inductive Opcode where
  | arm (w : Word)
  | thumb (h : Half)
deriving DecidableEq, Repr

/-- The instruction of an opcode. -/
def Opcode.decode : Opcode → Instr
  | .arm w => decodeArm w
  | .thumb h => decodeThumb h

/-- An opcode as a latch holds it: a THUMB opcode zero-extended (R47). -/
def Opcode.latch : Opcode → Word
  | .arm w => w
  | .thumb h => h.setWidth 32

/-- The bytes of an opcode, the first at the lowest address: little-endian (R86). -/
def Opcode.bytes : Opcode → List Byte
  | .arm w => [w.extractLsb' 0 8, w.extractLsb' 8 8, w.extractLsb' 16 8, w.extractLsb' 24 8]
  | .thumb h => [h.extractLsb' 0 8, h.extractLsb' 8 8]

/-- Why the byte-level decoder rejects: every opcode decodes, so only too few bytes are rejected. -/
inductive DecodeError where
  | truncatedArm
  | truncatedThumb
deriving DecidableEq, Repr

/-- The instruction at the head of a byte list and the rest of the list. The instruction-set state alone
decides the length (R120). -/
def decodeBytes (thumb : Bool) (bs : List Byte) : Except DecodeError (Instr × List Byte) :=
  match thumb, bs with
  | false, b0 :: b1 :: b2 :: b3 :: rest => .ok (decodeArm (b3 ++ b2 ++ b1 ++ b0), rest)
  | true, b0 :: b1 :: rest => .ok (decodeThumb (b1 ++ b0), rest)
  | false, _ => .error .truncatedArm
  | true, _ => .error .truncatedThumb

/-- The opcode whose bits are `w`, for a row of `nbits` bits: a THUMB halfword or an ARM word. -/
def opcodeOfTable (nbits w : Nat) : Option Opcode :=
  if nbits ≤ 16 then some (.thumb (BitVec.ofNat 16 w))
  else if nbits ≤ 32 then some (.arm (BitVec.ofNat 32 w))
  else none

/-- The instruction the decoder reads from an opcode numbered as spec/opcode_table.json numbers it. -/
def decodeTableWord (nbits w : Nat) : Option Instr :=
  match opcodeOfTable nbits w with
  | some (.arm a) =>
    match decodeBytes false (Opcode.bytes (.arm a)) with
    | .ok (i, _) => some i
    | .error _ => none
  | some (.thumb h) =>
    match decodeBytes true (Opcode.bytes (.thumb h)) with
    | .ok (i, _) => some i
    | .error _ => none
  | none => none

/-! ## The encoder -/

/-- A flag as a one-bit field. -/
def bit (b : Bool) : BitVec 1 := BitVec.ofBool b

/-- An ARM opcode of a condition, a row, four nibbles, a column and a last nibble. -/
def armWord (c : Cond) (row : BitVec 8) (rn rd rs col rm : BitVec 4) : Opcode :=
  .arm (ArmFields.toWord { cond := c.bits, row := row, rn := rn, rd := rd, rs := rs, col := col, rm := rm })

/-- The immediate data-processing format (R124, R125). -/
def encodeDpImm (op : DpOp) (c : Cond) (sf : Bool) (rn rd rot : BitVec 4) (imm : Byte) : Opcode :=
  armWord c (0b001#3 ++ op.bits ++ bit sf) rn rd rot (imm.extractLsb' 4 4) (imm.extractLsb' 0 4)

/-- The immediate-shift data-processing format (R124, R126). -/
def encodeDpShift (op : DpOp) (c : Cond) (sf : Bool) (rn rd : RegNum) (amt : BitVec 5) (k : ShiftKind)
    (rm : RegNum) : Opcode :=
  armWord c (0b000#3 ++ op.bits ++ bit sf) rn rd (amt.extractLsb' 1 4) (amt.extractLsb' 0 1 ++ k.bits ++ 0#1) rm

/-- The register-shift data-processing format (R124, R127). -/
def encodeDpRegShift (op : DpOp) (c : Cond) (sf : Bool) (rn rd rs : RegNum) (k : ShiftKind)
    (rm : RegNum) : Opcode :=
  armWord c (0b000#3 ++ op.bits ++ bit sf) rn rd rs (0#1 ++ k.bits ++ 1#1) rm

/-- The single-data-transfer format with an immediate offset (R133). -/
def encodeSdtImm (c : Cond) (p u b w l : Bool) (rn rd : RegNum) (off : BitVec 12) : Opcode :=
  armWord c (0b010#3 ++ bit p ++ bit u ++ bit b ++ bit w ++ bit l) rn rd (off.extractLsb' 8 4)
    (off.extractLsb' 4 4) (off.extractLsb' 0 4)

/-- The single-data-transfer format with a register offset (R133). -/
def encodeSdtReg (c : Cond) (p u b w l : Bool) (rn rd : RegNum) (amt : BitVec 5) (k : ShiftKind)
    (rm : RegNum) : Opcode :=
  armWord c (0b011#3 ++ bit p ++ bit u ++ bit b ++ bit w ++ bit l) rn rd (amt.extractLsb' 1 4)
    (amt.extractLsb' 0 1 ++ k.bits ++ 0#1) rm

/-- The halfword and signed transfer format (R134); `sh` is op[6:5]. -/
def encodeHalfword (c : Cond) (p u i w l : Bool) (sh : BitVec 2) (rn rd hi lo : BitVec 4) : Opcode :=
  armWord c (0b000#3 ++ bit p ++ bit u ++ bit i ++ bit w ++ bit l) rn rd hi (1#1 ++ sh ++ 1#1) lo

/-- The P bit of an addressing mode (R350). -/
def BlockMode.p : BlockMode → Bool
  | .da => false | .ia => false | .db => true | .ib => true

/-- The U bit of an addressing mode (R350). -/
def BlockMode.u : BlockMode → Bool
  | .da => false | .ia => true | .db => false | .ib => true

/-- The block-data-transfer format (R135). -/
def encodeBlock (m : BlockMode) (c : Cond) (s w l : Bool) (rn : RegNum) (rl : BitVec 16) : Opcode :=
  armWord c (0b100#3 ++ bit m.p ++ bit m.u ++ bit s ++ bit w ++ bit l) rn (rl.extractLsb' 12 4)
    (rl.extractLsb' 8 4) (rl.extractLsb' 4 4) (rl.extractLsb' 0 4)

/-- A format whose op[27:24] is fixed and whose op[23:0] is one field (R136, R138). -/
def encode24 (c : Cond) (top : BitVec 4) (x : BitVec 24) : Opcode :=
  armWord c (top ++ x.extractLsb' 20 4) (x.extractLsb' 16 4) (x.extractLsb' 12 4) (x.extractLsb' 8 4)
    (x.extractLsb' 4 4) (x.extractLsb' 0 4)

/-- An undefined instruction: its condition and its op[27:0] (R139, R140). -/
def encode28 (c : Cond) (x : BitVec 28) : Opcode :=
  armWord c (x.extractLsb' 20 8) (x.extractLsb' 16 4) (x.extractLsb' 12 4) (x.extractLsb' 8 4)
    (x.extractLsb' 4 4) (x.extractLsb' 0 4)

/-- The coprocessor data-transfer format (R137). -/
def encodeCoprocMem (c : Cond) (p u n w l : Bool) (rn crd cp : BitVec 4) (off : Byte) : Opcode :=
  armWord c (0b110#3 ++ bit p ++ bit u ++ bit n ++ bit w ++ bit l) rn crd cp (off.extractLsb' 4 4)
    (off.extractLsb' 0 4)

/-- The opcode of an instruction (30_encoding.md R124 to R160). -/
def Instr.encode : Instr → Opcode
  | .andImm c sf rn rd rot imm => encodeDpImm .and c sf rn rd rot imm
  | .andShift c sf rn rd amt k rm => encodeDpShift .and c sf rn rd amt k rm
  | .andRegShift c sf rn rd rs k rm => encodeDpRegShift .and c sf rn rd rs k rm
  | .eorImm c sf rn rd rot imm => encodeDpImm .eor c sf rn rd rot imm
  | .eorShift c sf rn rd amt k rm => encodeDpShift .eor c sf rn rd amt k rm
  | .eorRegShift c sf rn rd rs k rm => encodeDpRegShift .eor c sf rn rd rs k rm
  | .subImm c sf rn rd rot imm => encodeDpImm .sub c sf rn rd rot imm
  | .subShift c sf rn rd amt k rm => encodeDpShift .sub c sf rn rd amt k rm
  | .subRegShift c sf rn rd rs k rm => encodeDpRegShift .sub c sf rn rd rs k rm
  | .rsbImm c sf rn rd rot imm => encodeDpImm .rsb c sf rn rd rot imm
  | .rsbShift c sf rn rd amt k rm => encodeDpShift .rsb c sf rn rd amt k rm
  | .rsbRegShift c sf rn rd rs k rm => encodeDpRegShift .rsb c sf rn rd rs k rm
  | .addImm c sf rn rd rot imm => encodeDpImm .add c sf rn rd rot imm
  | .addShift c sf rn rd amt k rm => encodeDpShift .add c sf rn rd amt k rm
  | .addRegShift c sf rn rd rs k rm => encodeDpRegShift .add c sf rn rd rs k rm
  | .adcImm c sf rn rd rot imm => encodeDpImm .adc c sf rn rd rot imm
  | .adcShift c sf rn rd amt k rm => encodeDpShift .adc c sf rn rd amt k rm
  | .adcRegShift c sf rn rd rs k rm => encodeDpRegShift .adc c sf rn rd rs k rm
  | .sbcImm c sf rn rd rot imm => encodeDpImm .sbc c sf rn rd rot imm
  | .sbcShift c sf rn rd amt k rm => encodeDpShift .sbc c sf rn rd amt k rm
  | .sbcRegShift c sf rn rd rs k rm => encodeDpRegShift .sbc c sf rn rd rs k rm
  | .rscImm c sf rn rd rot imm => encodeDpImm .rsc c sf rn rd rot imm
  | .rscShift c sf rn rd amt k rm => encodeDpShift .rsc c sf rn rd amt k rm
  | .rscRegShift c sf rn rd rs k rm => encodeDpRegShift .rsc c sf rn rd rs k rm
  | .tstImm c rn sbz rot imm => encodeDpImm .tst c true rn sbz rot imm
  | .tstShift c rn sbz amt k rm => encodeDpShift .tst c true rn sbz amt k rm
  | .tstRegShift c rn sbz rs k rm => encodeDpRegShift .tst c true rn sbz rs k rm
  | .teqImm c rn sbz rot imm => encodeDpImm .teq c true rn sbz rot imm
  | .teqShift c rn sbz amt k rm => encodeDpShift .teq c true rn sbz amt k rm
  | .teqRegShift c rn sbz rs k rm => encodeDpRegShift .teq c true rn sbz rs k rm
  | .cmpImm c rn sbz rot imm => encodeDpImm .cmp c true rn sbz rot imm
  | .cmpShift c rn sbz amt k rm => encodeDpShift .cmp c true rn sbz amt k rm
  | .cmpRegShift c rn sbz rs k rm => encodeDpRegShift .cmp c true rn sbz rs k rm
  | .cmnImm c rn sbz rot imm => encodeDpImm .cmn c true rn sbz rot imm
  | .cmnShift c rn sbz amt k rm => encodeDpShift .cmn c true rn sbz amt k rm
  | .cmnRegShift c rn sbz rs k rm => encodeDpRegShift .cmn c true rn sbz rs k rm
  | .orrImm c sf rn rd rot imm => encodeDpImm .orr c sf rn rd rot imm
  | .orrShift c sf rn rd amt k rm => encodeDpShift .orr c sf rn rd amt k rm
  | .orrRegShift c sf rn rd rs k rm => encodeDpRegShift .orr c sf rn rd rs k rm
  | .movImm c sf sbz rd rot imm => encodeDpImm .mov c sf sbz rd rot imm
  | .movShift c sf sbz rd amt k rm => encodeDpShift .mov c sf sbz rd amt k rm
  | .movRegShift c sf sbz rd rs k rm => encodeDpRegShift .mov c sf sbz rd rs k rm
  | .bicImm c sf rn rd rot imm => encodeDpImm .bic c sf rn rd rot imm
  | .bicShift c sf rn rd amt k rm => encodeDpShift .bic c sf rn rd amt k rm
  | .bicRegShift c sf rn rd rs k rm => encodeDpRegShift .bic c sf rn rd rs k rm
  | .mvnImm c sf sbz rd rot imm => encodeDpImm .mvn c sf sbz rd rot imm
  | .mvnShift c sf sbz rd amt k rm => encodeDpShift .mvn c sf sbz rd amt k rm
  | .mvnRegShift c sf sbz rd rs k rm => encodeDpRegShift .mvn c sf sbz rd rs k rm
  | .mrs c r sbo rd sbzHi sbzLo => armWord c (0b00010#5 ++ bit r ++ 0b00#2) sbo rd sbzHi 0 sbzLo
  | .msrReg c r mask sbo sbz rm => armWord c (0b00010#5 ++ bit r ++ 0b10#2) mask sbo sbz 0 rm
  | .msrImm c r mask sbo rot imm => armWord c (0b00110#5 ++ bit r ++ 0b10#2) mask sbo rot (imm.extractLsb' 4 4) (imm.extractLsb' 0 4)
  | .mul c sf rd sbz rs rm => armWord c (0b0000000#7 ++ bit sf) rd sbz rs 0b1001 rm
  | .mla c sf rd rn rs rm => armWord c (0b0000001#7 ++ bit sf) rd rn rs 0b1001 rm
  | .umull c sf rdHi rdLo rs rm => armWord c (0b0000100#7 ++ bit sf) rdHi rdLo rs 0b1001 rm
  | .umlal c sf rdHi rdLo rs rm => armWord c (0b0000101#7 ++ bit sf) rdHi rdLo rs 0b1001 rm
  | .smull c sf rdHi rdLo rs rm => armWord c (0b0000110#7 ++ bit sf) rdHi rdLo rs 0b1001 rm
  | .smlal c sf rdHi rdLo rs rm => armWord c (0b0000111#7 ++ bit sf) rdHi rdLo rs 0b1001 rm
  | .swp c rn rd sbz rm => armWord c 0b00010000 rn rd sbz 0b1001 rm
  | .swpb c rn rd sbz rm => armWord c 0b00010100 rn rd sbz 0b1001 rm
  | .bx c sbo rm => armWord c 0b00010010 (sbo.extractLsb' 8 4) (sbo.extractLsb' 4 4) (sbo.extractLsb' 0 4) 0b0001 rm
  | .strImmPre c u w rn rd off => encodeSdtImm c true u false w false rn rd off
  | .strImmPost c u rn rd off => encodeSdtImm c false u false false false rn rd off
  | .strRegPre c u w rn rd amt k rm => encodeSdtReg c true u false w false rn rd amt k rm
  | .strRegPost c u rn rd amt k rm => encodeSdtReg c false u false false false rn rd amt k rm
  | .strbImmPre c u w rn rd off => encodeSdtImm c true u true w false rn rd off
  | .strbImmPost c u rn rd off => encodeSdtImm c false u true false false rn rd off
  | .strbRegPre c u w rn rd amt k rm => encodeSdtReg c true u true w false rn rd amt k rm
  | .strbRegPost c u rn rd amt k rm => encodeSdtReg c false u true false false rn rd amt k rm
  | .ldrImmPre c u w rn rd off => encodeSdtImm c true u false w true rn rd off
  | .ldrImmPost c u rn rd off => encodeSdtImm c false u false false true rn rd off
  | .ldrRegPre c u w rn rd amt k rm => encodeSdtReg c true u false w true rn rd amt k rm
  | .ldrRegPost c u rn rd amt k rm => encodeSdtReg c false u false false true rn rd amt k rm
  | .ldrbImmPre c u w rn rd off => encodeSdtImm c true u true w true rn rd off
  | .ldrbImmPost c u rn rd off => encodeSdtImm c false u true false true rn rd off
  | .ldrbRegPre c u w rn rd amt k rm => encodeSdtReg c true u true w true rn rd amt k rm
  | .ldrbRegPost c u rn rd amt k rm => encodeSdtReg c false u true false true rn rd amt k rm
  | .strtImm c u rn rd off => encodeSdtImm c false u false true false rn rd off
  | .strtReg c u rn rd amt k rm => encodeSdtReg c false u false true false rn rd amt k rm
  | .strbtImm c u rn rd off => encodeSdtImm c false u true true false rn rd off
  | .strbtReg c u rn rd amt k rm => encodeSdtReg c false u true true false rn rd amt k rm
  | .ldrtImm c u rn rd off => encodeSdtImm c false u false true true rn rd off
  | .ldrtReg c u rn rd amt k rm => encodeSdtReg c false u false true true rn rd amt k rm
  | .ldrbtImm c u rn rd off => encodeSdtImm c false u true true true rn rd off
  | .ldrbtReg c u rn rd amt k rm => encodeSdtReg c false u true true true rn rd amt k rm
  | .strhReg c p u w rn rd sbz rm => encodeHalfword c p u false w false 0b01 rn rd sbz rm
  | .strhImm c p u w rn rd hi lo => encodeHalfword c p u true w false 0b01 rn rd hi lo
  | .ldrhReg c p u w rn rd sbz rm => encodeHalfword c p u false w true 0b01 rn rd sbz rm
  | .ldrhImm c p u w rn rd hi lo => encodeHalfword c p u true w true 0b01 rn rd hi lo
  | .ldrsbReg c p u w rn rd sbz rm => encodeHalfword c p u false w true 0b10 rn rd sbz rm
  | .ldrsbImm c p u w rn rd hi lo => encodeHalfword c p u true w true 0b10 rn rd hi lo
  | .ldrshReg c p u w rn rd sbz rm => encodeHalfword c p u false w true 0b11 rn rd sbz rm
  | .ldrshImm c p u w rn rd hi lo => encodeHalfword c p u true w true 0b11 rn rd hi lo
  | .reservedLsh10Reg c p u w rn rd hi lo => encodeHalfword c p u false w false 0b10 rn rd hi lo
  | .reservedLsh10Imm c p u w rn rd hi lo => encodeHalfword c p u true w false 0b10 rn rd hi lo
  | .reservedLsh11Reg c p u w rn rd hi lo => encodeHalfword c p u false w false 0b11 rn rd hi lo
  | .reservedLsh11Imm c p u w rn rd hi lo => encodeHalfword c p u true w false 0b11 rn rd hi lo
  | .stmda c w rn rl => encodeBlock .da c false w false rn rl
  | .stmia c w rn rl => encodeBlock .ia c false w false rn rl
  | .stmdb c w rn rl => encodeBlock .db c false w false rn rl
  | .stmib c w rn rl => encodeBlock .ib c false w false rn rl
  | .ldmda c w rn rl => encodeBlock .da c false w true rn rl
  | .ldmia c w rn rl => encodeBlock .ia c false w true rn rl
  | .ldmdb c w rn rl => encodeBlock .db c false w true rn rl
  | .ldmib c w rn rl => encodeBlock .ib c false w true rn rl
  | .stmdaUser c w rn rl => encodeBlock .da c true w false rn rl
  | .stmiaUser c w rn rl => encodeBlock .ia c true w false rn rl
  | .stmdbUser c w rn rl => encodeBlock .db c true w false rn rl
  | .stmibUser c w rn rl => encodeBlock .ib c true w false rn rl
  | .ldmdaUser c w rn rl => encodeBlock .da c true w true rn (0#1 ++ rl)
  | .ldmiaUser c w rn rl => encodeBlock .ia c true w true rn (0#1 ++ rl)
  | .ldmdbUser c w rn rl => encodeBlock .db c true w true rn (0#1 ++ rl)
  | .ldmibUser c w rn rl => encodeBlock .ib c true w true rn (0#1 ++ rl)
  | .ldmdaRet c w rn rl => encodeBlock .da c true w true rn (1#1 ++ rl)
  | .ldmiaRet c w rn rl => encodeBlock .ia c true w true rn (1#1 ++ rl)
  | .ldmdbRet c w rn rl => encodeBlock .db c true w true rn (1#1 ++ rl)
  | .ldmibRet c w rn rl => encodeBlock .ib c true w true rn (1#1 ++ rl)
  | .b c off => encode24 c 0b1010 off
  | .bl c off => encode24 c 0b1011 off
  | .swi c imm => encode24 c 0b1111 imm
  | .cdp c op1 crn crd cp op2 crm => armWord c (0b1110#4 ++ op1) crn crd cp (op2 ++ 0#1) crm
  | .ldc c p u n w rn crd cp off => encodeCoprocMem c p u n w true rn crd cp off
  | .stc c p u n w rn crd cp off => encodeCoprocMem c p u n w false rn crd cp off
  | .mcr c op1 crn rd cp op2 crm => armWord c (0b1110#4 ++ op1 ++ 0#1) crn rd cp (op2 ++ 1#1) crm
  | .mrc c op1 crn rd cp op2 crm => armWord c (0b1110#4 ++ op1 ++ 1#1) crn rd cp (op2 ++ 1#1) crm
  | .undMul c body => encode28 c body
  | .undMisc1 c body => encode28 c body
  | .undMisc23 c body => encode28 c body
  | .undMisc45 c body => encode28 c body
  | .undMiscHigh c body => encode28 c body
  | .undSwapOdd c body => encode28 c body
  | .undSwapW c body => encode28 c body
  | .undMisc1Row16 c body => encode28 c body
  | .undSwapHigh c body => encode28 c body
  | .undPsrImm c body => encode28 c body
  | .undMedia c body => encode28 c body
  | .tLslImm off rs rd => .thumb (0b00000#5 ++ off ++ rs ++ rd)
  | .tLsrImm off rs rd => .thumb (0b00001#5 ++ off ++ rs ++ rd)
  | .tAsrImm off rs rd => .thumb (0b00010#5 ++ off ++ rs ++ rd)
  | .tAddReg rn rs rd => .thumb (0b0001100#7 ++ rn ++ rs ++ rd)
  | .tSubReg rn rs rd => .thumb (0b0001101#7 ++ rn ++ rs ++ rd)
  | .tAddImm3 off rs rd => .thumb (0b0001110#7 ++ off ++ rs ++ rd)
  | .tSubImm3 off rs rd => .thumb (0b0001111#7 ++ off ++ rs ++ rd)
  | .tMovImm8 rd off => .thumb (0b00100#5 ++ rd ++ off)
  | .tCmpImm8 rd off => .thumb (0b00101#5 ++ rd ++ off)
  | .tAddImm8 rd off => .thumb (0b00110#5 ++ rd ++ off)
  | .tSubImm8 rd off => .thumb (0b00111#5 ++ rd ++ off)
  | .tAnd rs rd => .thumb (0b0100000000#10 ++ rs ++ rd)
  | .tEor rs rd => .thumb (0b0100000001#10 ++ rs ++ rd)
  | .tLsl rs rd => .thumb (0b0100000010#10 ++ rs ++ rd)
  | .tLsr rs rd => .thumb (0b0100000011#10 ++ rs ++ rd)
  | .tAsr rs rd => .thumb (0b0100000100#10 ++ rs ++ rd)
  | .tAdc rs rd => .thumb (0b0100000101#10 ++ rs ++ rd)
  | .tSbc rs rd => .thumb (0b0100000110#10 ++ rs ++ rd)
  | .tRor rs rd => .thumb (0b0100000111#10 ++ rs ++ rd)
  | .tTst rs rd => .thumb (0b0100001000#10 ++ rs ++ rd)
  | .tNeg rs rd => .thumb (0b0100001001#10 ++ rs ++ rd)
  | .tCmp rs rd => .thumb (0b0100001010#10 ++ rs ++ rd)
  | .tCmn rs rd => .thumb (0b0100001011#10 ++ rs ++ rd)
  | .tOrr rs rd => .thumb (0b0100001100#10 ++ rs ++ rd)
  | .tMul rs rd => .thumb (0b0100001101#10 ++ rs ++ rd)
  | .tBic rs rd => .thumb (0b0100001110#10 ++ rs ++ rd)
  | .tMvn rs rd => .thumb (0b0100001111#10 ++ rs ++ rd)
  | .tAddHi h1 h2 rs rd => .thumb (0b01000100#8 ++ bit h1 ++ bit h2 ++ rs ++ rd)
  | .tCmpHi h1 h2 rs rd => .thumb (0b01000101#8 ++ bit h1 ++ bit h2 ++ rs ++ rd)
  | .tMovHi h1 h2 rs rd => .thumb (0b01000110#8 ++ bit h1 ++ bit h2 ++ rs ++ rd)
  | .tBx h2 rs sbz => .thumb (0b010001110#9 ++ bit h2 ++ rs ++ sbz)
  | .tBxH1 h2 rs sbz => .thumb (0b010001111#9 ++ bit h2 ++ rs ++ sbz)
  | .tLdrPc rd word8 => .thumb (0b01001#5 ++ rd ++ word8)
  | .tStrReg ro rb rd => .thumb (0b0101000#7 ++ ro ++ rb ++ rd)
  | .tStrhReg ro rb rd => .thumb (0b0101001#7 ++ ro ++ rb ++ rd)
  | .tStrbReg ro rb rd => .thumb (0b0101010#7 ++ ro ++ rb ++ rd)
  | .tLdsbReg ro rb rd => .thumb (0b0101011#7 ++ ro ++ rb ++ rd)
  | .tLdrReg ro rb rd => .thumb (0b0101100#7 ++ ro ++ rb ++ rd)
  | .tLdrhReg ro rb rd => .thumb (0b0101101#7 ++ ro ++ rb ++ rd)
  | .tLdrbReg ro rb rd => .thumb (0b0101110#7 ++ ro ++ rb ++ rd)
  | .tLdshReg ro rb rd => .thumb (0b0101111#7 ++ ro ++ rb ++ rd)
  | .tStrImm off rb rd => .thumb (0b01100#5 ++ off ++ rb ++ rd)
  | .tLdrImm off rb rd => .thumb (0b01101#5 ++ off ++ rb ++ rd)
  | .tStrbImm off rb rd => .thumb (0b01110#5 ++ off ++ rb ++ rd)
  | .tLdrbImm off rb rd => .thumb (0b01111#5 ++ off ++ rb ++ rd)
  | .tStrhImm off rb rd => .thumb (0b10000#5 ++ off ++ rb ++ rd)
  | .tLdrhImm off rb rd => .thumb (0b10001#5 ++ off ++ rb ++ rd)
  | .tStrSp rd word8 => .thumb (0b10010#5 ++ rd ++ word8)
  | .tLdrSp rd word8 => .thumb (0b10011#5 ++ rd ++ word8)
  | .tAddPc rd word8 => .thumb (0b10100#5 ++ rd ++ word8)
  | .tAddSp rd word8 => .thumb (0b10101#5 ++ rd ++ word8)
  | .tIncSp word7 => .thumb (0b101100000#9 ++ word7)
  | .tDecSp word7 => .thumb (0b101100001#9 ++ word7)
  | .tPush r rl => .thumb (0b1011010#7 ++ bit r ++ rl)
  | .tPop r rl => .thumb (0b1011110#7 ++ bit r ++ rl)
  | .tStmia rb rl => .thumb (0b11000#5 ++ rb ++ rl)
  | .tLdmia rb rl => .thumb (0b11001#5 ++ rb ++ rl)
  | .tBeq off => .thumb (0b11010000#8 ++ off)
  | .tBne off => .thumb (0b11010001#8 ++ off)
  | .tBcs off => .thumb (0b11010010#8 ++ off)
  | .tBcc off => .thumb (0b11010011#8 ++ off)
  | .tBmi off => .thumb (0b11010100#8 ++ off)
  | .tBpl off => .thumb (0b11010101#8 ++ off)
  | .tBvs off => .thumb (0b11010110#8 ++ off)
  | .tBvc off => .thumb (0b11010111#8 ++ off)
  | .tBhi off => .thumb (0b11011000#8 ++ off)
  | .tBls off => .thumb (0b11011001#8 ++ off)
  | .tBge off => .thumb (0b11011010#8 ++ off)
  | .tBlt off => .thumb (0b11011011#8 ++ off)
  | .tBgt off => .thumb (0b11011100#8 ++ off)
  | .tBle off => .thumb (0b11011101#8 ++ off)
  | .tSwi imm => .thumb (0b11011111#8 ++ imm)
  | .tB off => .thumb (0b11100#5 ++ off)
  | .tBlHigh off => .thumb (0b11110#5 ++ off)
  | .tBlLow off => .thumb (0b11111#5 ++ off)
  | .tUndB1 bits => .thumb (0b10110001#8 ++ bits)
  | .tUndB2 bits => .thumb (0b1011001#7 ++ bits)
  | .tUndB6 bits => .thumb (0b1011011#7 ++ bits)
  | .tUndB8 bits => .thumb (0b101110#6 ++ bits)
  | .tUndBe bits => .thumb (0b1011111#7 ++ bits)
  | .tUndDe bits => .thumb (0b11011110#8 ++ bits)
  | .tUndE8 bits => .thumb (0b11101#5 ++ bits)

end Sys2Proof
end

