-- ==== Sys2Proof/Machine/Fetch.lean ====
section
/-! DEFINITION. The parts of a step around the meaning of an instruction (40_pipeline.md R181 to R183), and the
placing of an instruction where the next step executes it. -/

namespace Sys2Proof.Machine

/-- The instruction the next step executes: the `decoded` latch in the current instruction-set state (R181,
R182). -/
def State.nextInstr (s : State) : Instr :=
  if s.cpsr.t then decodeThumb (s.decoded.extractLsb' 0 16) else decodeArm s.decoded

/-- The start of a step: `cycles` is 0 and `fetched` becomes `decoded` (R181); the answers of the host's memory are
fresh ones (log 6). -/
def State.beginStep (s : State) : State :=
  { s with decoded := s.fetched, cycles := 0, draws := s.draws + 1 }

/-- The end of a step: its cycles are added to the total (R181, R586). -/
def State.endStep (s : State) : State := { s with totalCycles := s.totalCycles + s.cycles }

/-- The U-cases and the effect of the next instruction, between the start and the end of a step (R181). -/
def endResult : Result State → Result State
  | .next t => .next t.endStep
  | .fault f => .fault f
  | .refused r => .refused r

/-- Memory with bytes stored from an address on. -/
def Mem.setRun (m : Mem) (a : Word) : List Byte → Mem
  | [] => m
  | b :: bs => Mem.setRun (m.setByte a b) (a + 1) bs

/-- The state with an opcode stored at the address the next step executes, T set to the opcode's
instruction-set state and the latches seeded there (R190), `decoded` with the opcode itself, whatever the host's
memory answers there; nothing else changes (log 15). -/
def State.placeOpcode (s : State) (o : Opcode) : State :=
  let s1 := { s with cpsr := { s.cpsr with t := (match o with | .thumb _ => true | .arm _ => false) } }
  let a := alignTo s1.opWidth s.instrAddr
  let s2 := { s1 with mem := s1.mem.setRun a o.bytes }
  { s2.refill a with decoded := o.latch, userBankHazard := s.userBankHazard }

/-- `withFetchWord` for an opcode numbered as spec/opcode_table.json numbers it; longer ones do not exist
(R120). -/
def State.placeTableWord (s : State) (nbits w : Nat) : State :=
  match opcodeOfTable nbits w with
  | some o => s.placeOpcode o
  | none => s

end Sys2Proof.Machine
end

