-- ==== Sys2Proof/Machine/Step.lean ====
section
/-! DEFINITION. The step (40_pipeline.md R181). -/

namespace Sys2Proof.Machine

/-- One step: a machine that has stopped stays stopped (R14, log 10), an invalid mode faults (R31), else the
instruction in `decoded` is executed (R181). -/
def step (s : State) : Host.Outcome State Fault Refusal :=
  match s.faultRecord with
  | some f => .fault f
  | none =>
    match s.cpsr.mode with
    | none => .fault (.invalidMode s.instrAddr)
    | some _ => endResult (exec s.nextInstr s.beginStep)

/-- The state with an instruction placed so that the next step executes it (log 15). -/
def State.withFetchWord (s : State) (nbits w : Nat) : State := s.placeTableWord nbits w

end Sys2Proof.Machine
end

