-- ==== Sys2Proof/Machine/Forms.lean ====
section
/-! DEFINITION. The instruction of a form: one name for the rows of spec/opcode_table.json that differ only in their
operand form, so that one claim speaks of all of them. -/

namespace Sys2Proof.Machine

/-- The data-processing instruction of an operation and an operand2 (R124 to R128). -/
def Operand2.instr (o : Operand2) (op : DpOp) (c : Cond) (sf : Bool) (rn rd : RegNum) : Instr :=
  match o with
  | .imm rot x => op.instrImm c sf rn rd rot x
  | .shift amt k rm => op.instrShift c sf rn rd amt k rm
  | .regShift rs k rm => op.instrRegShift c sf rn rd rs k rm

/-- LDR, LDRB (`byte`), and their T forms, in an addressing form (R133, R315). -/
def Offset.loadInstr (o : Offset) (byte : Bool) (c : Cond) (ix : Indexing) (u : Bool) (rn rd : RegNum) : Instr :=
  match byte, ix, o with
  | false, .pre w, .imm off => .ldrImmPre c u w rn rd off
  | false, .post, .imm off => .ldrImmPost c u rn rd off
  | false, .user, .imm off => .ldrtImm c u rn rd off
  | false, .pre w, .reg amt k rm => .ldrRegPre c u w rn rd amt k rm
  | false, .post, .reg amt k rm => .ldrRegPost c u rn rd amt k rm
  | false, .user, .reg amt k rm => .ldrtReg c u rn rd amt k rm
  | true, .pre w, .imm off => .ldrbImmPre c u w rn rd off
  | true, .post, .imm off => .ldrbImmPost c u rn rd off
  | true, .user, .imm off => .ldrbtImm c u rn rd off
  | true, .pre w, .reg amt k rm => .ldrbRegPre c u w rn rd amt k rm
  | true, .post, .reg amt k rm => .ldrbRegPost c u rn rd amt k rm
  | true, .user, .reg amt k rm => .ldrbtReg c u rn rd amt k rm

/-- STR, STRB (`byte`), and their T forms, in an addressing form (R133, R315). -/
def Offset.storeInstr (o : Offset) (byte : Bool) (c : Cond) (ix : Indexing) (u : Bool) (rn rd : RegNum) : Instr :=
  match byte, ix, o with
  | false, .pre w, .imm off => .strImmPre c u w rn rd off
  | false, .post, .imm off => .strImmPost c u rn rd off
  | false, .user, .imm off => .strtImm c u rn rd off
  | false, .pre w, .reg amt k rm => .strRegPre c u w rn rd amt k rm
  | false, .post, .reg amt k rm => .strRegPost c u rn rd amt k rm
  | false, .user, .reg amt k rm => .strtReg c u rn rd amt k rm
  | true, .pre w, .imm off => .strbImmPre c u w rn rd off
  | true, .post, .imm off => .strbImmPost c u rn rd off
  | true, .user, .imm off => .strbtImm c u rn rd off
  | true, .pre w, .reg amt k rm => .strbRegPre c u w rn rd amt k rm
  | true, .post, .reg amt k rm => .strbRegPost c u rn rd amt k rm
  | true, .user, .reg amt k rm => .strbtReg c u rn rd amt k rm

/-- The three loads of the halfword format (R320, R322, R323). -/
inductive HalfLoad where
  | unsignedHalf
  | signedByte
  | signedHalf
deriving DecidableEq, Repr

/-- LDRH, LDRSB or LDRSH in an offset form (R134). -/
def HwOffset.loadInstr (o : HwOffset) (h : HalfLoad) (c : Cond) (p u w : Bool) (rn rd sbz : RegNum) : Instr :=
  match h, o with
  | .unsignedHalf, .reg rm => .ldrhReg c p u w rn rd sbz rm
  | .unsignedHalf, .imm hi lo => .ldrhImm c p u w rn rd hi lo
  | .signedByte, .reg rm => .ldrsbReg c p u w rn rd sbz rm
  | .signedByte, .imm hi lo => .ldrsbImm c p u w rn rd hi lo
  | .signedHalf, .reg rm => .ldrshReg c p u w rn rd sbz rm
  | .signedHalf, .imm hi lo => .ldrshImm c p u w rn rd hi lo

/-- STRH in an offset form (R134). -/
def HwOffset.storeInstr (o : HwOffset) (c : Cond) (p u w : Bool) (rn rd sbz : RegNum) : Instr :=
  match o with
  | .reg rm => .strhReg c p u w rn rd sbz rm
  | .imm hi lo => .strhImm c p u w rn rd hi lo

/-- The four long multiplies (R373 to R376). -/
def longMulInstr (signed acc : Bool) (c : Cond) (sf : Bool) (rdHi rdLo rs rm : RegNum) : Instr :=
  match signed, acc with
  | false, false => .umull c sf rdHi rdLo rs rm
  | false, true => .umlal c sf rdHi rdLo rs rm
  | true, false => .smull c sf rdHi rdLo rs rm
  | true, true => .smlal c sf rdHi rdLo rs rm

/-- The THUMB conditional branch of a condition; there is none for AL and NV (R156, R500). -/
def thumbBranchInstr (c : Cond) (off : Byte) : Option Instr :=
  match c with
  | .eq => some (.tBeq off)
  | .ne => some (.tBne off)
  | .cs => some (.tBcs off)
  | .cc => some (.tBcc off)
  | .mi => some (.tBmi off)
  | .pl => some (.tBpl off)
  | .vs => some (.tBvs off)
  | .vc => some (.tBvc off)
  | .hi => some (.tBhi off)
  | .ls => some (.tBls off)
  | .ge => some (.tBge off)
  | .lt => some (.tBlt off)
  | .gt => some (.tBgt off)
  | .le => some (.tBle off)
  | .al => none
  | .nv => none

end Sys2Proof.Machine

namespace Sys2Proof

/-- The undefined encodings of both instruction sets (R140, R160). -/
def Instr.isUndefined : Instr → Bool
  | .undMul _ _ => true
  | .undMisc1 _ _ => true
  | .undMisc23 _ _ => true
  | .undMisc45 _ _ => true
  | .undMiscHigh _ _ => true
  | .undSwapOdd _ _ => true
  | .undSwapW _ _ => true
  | .undMisc1Row16 _ _ => true
  | .undSwapHigh _ _ => true
  | .undPsrImm _ _ => true
  | .undMedia _ _ => true
  | .tUndB1 _ => true
  | .tUndB2 _ => true
  | .tUndB6 _ => true
  | .tUndB8 _ => true
  | .tUndBe _ => true
  | .tUndDe _ => true
  | .tUndE8 _ => true
  | _ => false

/-- The five coprocessor instructions (R401 to R405). -/
def Instr.isCoprocessor : Instr → Bool
  | .cdp _ _ _ _ _ _ _ => true
  | .ldc _ _ _ _ _ _ _ _ _ => true
  | .stc _ _ _ _ _ _ _ _ _ => true
  | .mcr _ _ _ _ _ _ _ => true
  | .mrc _ _ _ _ _ _ _ => true
  | _ => false

/-- The software interrupts of both instruction sets (R393, R501). -/
def Instr.isSwi : Instr → Bool
  | .swi _ _ => true
  | .tSwi _ => true
  | _ => false

end Sys2Proof
end

