-- ==== Sys2Proof/Machine/HostInput.lean ====
section
/-! DEFINITION. What the host does between steps: reset and seeding (70_reset_and_hazards.md R570 to R574,
40_pipeline.md R190), exceptions (60_exceptions.md R525, R532, R535), direct writes (10_state.md R49, R582) and
the step as the host calls it (00_scope.md R14, 40_pipeline.md R196). `step` takes none of them by itself
(log 14). -/

namespace Sys2Proof.Machine

/-- `reset_registers()` (R571). -/
def State.resetRegisters (s : State) : State :=
  { s with cpsr := { s.cpsr with m := Mode.supervisor.bits, i := true, f := true, t := false } }

/-- `set_pc(addr)` (R190, R572): the refill, its cost added to the total alone (R586); the answers of the host's
memory are fresh ones (log 6). -/
def State.setPc (s : State) (a : Word) : State :=
  { (s.afterDraws 1).refill a with totalCycles := s.totalCycles + s.refillCost a }

/-- Hardware reset of a machine with a given memory and parameters (R570, R51): construction, then
`reset_registers`, then `set_pc(EXCEPTION_BASE)`. The drawn values are those of `State.reset` (log 3, 4). -/
def hardwareReset (m : Mem) (p : Params) : State :=
  let s0 := { State.reset with mem := m, params := p, totalCycles := 0, draws := 0 }
  s0.resetRegisters.setPc p.exceptionBase

/-- The return address of an exception raised between steps, for a kind that has one (R525); Reset draws. -/
def State.hostReturnAddr (s : State) (k : ExceptionKind) : Word :=
  let nx := s.instrAddr
  let px := nx - s.opSize
  match k with
  | .reset => s.drawn
  | .undefined => nx
  | .swi => nx
  | .prefetchAbort => nx + 4
  | .dataAbort => px + 8
  | .addressExceeds26Bit => px + 8
  | .irq => nx + 4
  | .fiq => nx + 4

/-- `EnterException(kind, lr)` between steps: the refill path (R530). -/
def State.enterBetween (s : State) (k : ExceptionKind) (lr : Word) : State :=
  (s.enterMode k lr).setPc (s.vector k)

/-- `handle_exception(kind)` (R532): whether it fired, and the state after it. -/
def State.handleException (s : State) (k : ExceptionKind) : Bool × State :=
  match s.faultRecord with
  | some _ => (false, s)
  | none =>
    if k.masked s.cpsr then (false, s)
    else
      let lr := s.hostReturnAddr k
      let s1 := s.afterDraws (if k = .reset then 1 else 0)
      match s1.hook with
      | none => (true, s1.enterBetween k lr)
      | some id =>
        let h := Config.hookResult id k lr s1
        if h.consumed then (true, s1.afterHook h) else (true, (s1.afterHook h).enterBetween k lr)

/-- `set_exception_handler` (R535): which closure is a number. -/
def State.setExceptionHandler (s : State) (id : Nat) : State := { s with hook := some id }

/-- `remove_exception_handler` (R535). -/
def State.removeExceptionHandler (s : State) : State := { s with hook := none }

/-- A host write of a physical register (R49). -/
def State.hostWriteReg (s : State) (p : PhysReg) (v : Word) : State := { s with regs := s.regs.set p v }

/-- A host write of the stored R15: the latches keep their opcodes (R582). -/
def State.hostWritePc (s : State) (v : Word) : State := { s with pc := v }

/-- A host write of the CPSR: no refill, no check of the mode (R31, R582). -/
def State.hostWriteCpsr (s : State) (v : Word) : State := { s with cpsr := Psr.ofWord v }

/-- The CPSR bits that have accessors of their own (R41). -/
inductive CpsrFlag where
  | n
  | z
  | c
  | v
  | i
  | f
  | t
deriving DecidableEq, Repr

/-- `getf_X` (R41). -/
def State.getFlag (s : State) : CpsrFlag → Bool
  | .n => s.cpsr.n
  | .z => s.cpsr.z
  | .c => s.cpsr.c
  | .v => s.cpsr.v
  | .i => s.cpsr.i
  | .f => s.cpsr.f
  | .t => s.cpsr.t

/-- `putf_X` (R41): `setf_X` puts 1 and `clearf_X` puts 0; no other bit changes and the mode stays. -/
def State.putFlag (s : State) (x : CpsrFlag) (b : Bool) : State :=
  { s with cpsr := match x with
    | .n => { s.cpsr with n := b }
    | .z => { s.cpsr with z := b }
    | .c => { s.cpsr with c := b }
    | .v => { s.cpsr with v := b }
    | .i => { s.cpsr with i := b }
    | .f => { s.cpsr with f := b }
    | .t => { s.cpsr with t := b } }

/-- A host write of the SPSR of a bank (R49). -/
def State.hostWriteSpsr (s : State) (b : Bank) (v : Word) : State :=
  { s with spsrs := s.spsrs.set b (Psr.ofWord v) }

/-- A host write of a byte of memory: the latches keep their opcodes (R98). -/
def State.hostStore (s : State) (a : Word) (v : Byte) : State := { s with mem := s.mem.setByte a v }

/-- The step as the host calls it (R181, R196): the returned cycles and the state after; a fault is recorded and
final (R14), and a stopped machine returns 0 and stays as it is (R181). What the very step that faults returns the
spec leaves open: 0, and `cycles` stays as it was (DESIGN CHOICE, log 10). -/
def hostStep (s : State) : Nat × State :=
  match s.faultRecord with
  | some _ => (0, s)
  | none =>
    match step s with
    | .next t => (t.cycles, t)
    | .fault f => (0, { s with faultRecord := some f })
    | .refused _ => (0, s)

end Sys2Proof.Machine
end

