-- ==== Sys2Proof/WellFormed.lean ====
section
/-! DEFINITION. Well-formed instructions: those whose encoding the spec defines. -/

namespace Sys2Proof

/-- An undefined instruction's op[27:0] lies in its row of spec/opcode_table.json (R140). -/
def inRow (body mask pattern : BitVec 28) : Bool := body &&& mask == pattern

/-- The instruction is what its opcode decodes to: only the rows UND carry a field that must lie in the
row's pattern; every other constructor's fields take all their values. -/
def Instr.encodable : Instr → Bool
  | .undMul _ body => inRow body 0xFC000F0 0x0400090
  | .undMisc1 _ body => inRow body 0xFB000F0 0x1000010
  | .undMisc23 _ body => inRow body 0xF9000A0 0x1000020
  | .undMisc45 _ body => inRow body 0xF9000E0 0x1000040
  | .undMiscHigh _ body => inRow body 0xF900090 0x1000080
  | .undSwapOdd _ body => inRow body 0xF1000F0 0x1100090
  | .undSwapW _ body => inRow body 0xF3000F0 0x1200090
  | .undMisc1Row16 _ body => inRow body 0xFF000F0 0x1600010
  | .undSwapHigh _ body => inRow body 0xFB000F0 0x1800090
  | .undPsrImm _ body => inRow body 0xFB00000 0x3000000
  | .undMedia _ body => inRow body 0xE000010 0x6000010
  | _ => true

/-- The condition of an ARM instruction; a THUMB instruction has none (R123, R410). -/
def Instr.cond? : Instr → Option Cond
  | .andImm c _ _ _ _ _ => some c
  | .andShift c _ _ _ _ _ _ => some c
  | .andRegShift c _ _ _ _ _ _ => some c
  | .eorImm c _ _ _ _ _ => some c
  | .eorShift c _ _ _ _ _ _ => some c
  | .eorRegShift c _ _ _ _ _ _ => some c
  | .subImm c _ _ _ _ _ => some c
  | .subShift c _ _ _ _ _ _ => some c
  | .subRegShift c _ _ _ _ _ _ => some c
  | .rsbImm c _ _ _ _ _ => some c
  | .rsbShift c _ _ _ _ _ _ => some c
  | .rsbRegShift c _ _ _ _ _ _ => some c
  | .addImm c _ _ _ _ _ => some c
  | .addShift c _ _ _ _ _ _ => some c
  | .addRegShift c _ _ _ _ _ _ => some c
  | .adcImm c _ _ _ _ _ => some c
  | .adcShift c _ _ _ _ _ _ => some c
  | .adcRegShift c _ _ _ _ _ _ => some c
  | .sbcImm c _ _ _ _ _ => some c
  | .sbcShift c _ _ _ _ _ _ => some c
  | .sbcRegShift c _ _ _ _ _ _ => some c
  | .rscImm c _ _ _ _ _ => some c
  | .rscShift c _ _ _ _ _ _ => some c
  | .rscRegShift c _ _ _ _ _ _ => some c
  | .tstImm c _ _ _ _ => some c
  | .tstShift c _ _ _ _ _ => some c
  | .tstRegShift c _ _ _ _ _ => some c
  | .teqImm c _ _ _ _ => some c
  | .teqShift c _ _ _ _ _ => some c
  | .teqRegShift c _ _ _ _ _ => some c
  | .cmpImm c _ _ _ _ => some c
  | .cmpShift c _ _ _ _ _ => some c
  | .cmpRegShift c _ _ _ _ _ => some c
  | .cmnImm c _ _ _ _ => some c
  | .cmnShift c _ _ _ _ _ => some c
  | .cmnRegShift c _ _ _ _ _ => some c
  | .orrImm c _ _ _ _ _ => some c
  | .orrShift c _ _ _ _ _ _ => some c
  | .orrRegShift c _ _ _ _ _ _ => some c
  | .movImm c _ _ _ _ _ => some c
  | .movShift c _ _ _ _ _ _ => some c
  | .movRegShift c _ _ _ _ _ _ => some c
  | .bicImm c _ _ _ _ _ => some c
  | .bicShift c _ _ _ _ _ _ => some c
  | .bicRegShift c _ _ _ _ _ _ => some c
  | .mvnImm c _ _ _ _ _ => some c
  | .mvnShift c _ _ _ _ _ _ => some c
  | .mvnRegShift c _ _ _ _ _ _ => some c
  | .mrs c _ _ _ _ _ => some c
  | .msrReg c _ _ _ _ _ => some c
  | .msrImm c _ _ _ _ _ => some c
  | .mul c _ _ _ _ _ => some c
  | .mla c _ _ _ _ _ => some c
  | .umull c _ _ _ _ _ => some c
  | .umlal c _ _ _ _ _ => some c
  | .smull c _ _ _ _ _ => some c
  | .smlal c _ _ _ _ _ => some c
  | .swp c _ _ _ _ => some c
  | .swpb c _ _ _ _ => some c
  | .bx c _ _ => some c
  | .strImmPre c _ _ _ _ _ => some c
  | .strImmPost c _ _ _ _ => some c
  | .strRegPre c _ _ _ _ _ _ _ => some c
  | .strRegPost c _ _ _ _ _ _ => some c
  | .strbImmPre c _ _ _ _ _ => some c
  | .strbImmPost c _ _ _ _ => some c
  | .strbRegPre c _ _ _ _ _ _ _ => some c
  | .strbRegPost c _ _ _ _ _ _ => some c
  | .ldrImmPre c _ _ _ _ _ => some c
  | .ldrImmPost c _ _ _ _ => some c
  | .ldrRegPre c _ _ _ _ _ _ _ => some c
  | .ldrRegPost c _ _ _ _ _ _ => some c
  | .ldrbImmPre c _ _ _ _ _ => some c
  | .ldrbImmPost c _ _ _ _ => some c
  | .ldrbRegPre c _ _ _ _ _ _ _ => some c
  | .ldrbRegPost c _ _ _ _ _ _ => some c
  | .strtImm c _ _ _ _ => some c
  | .strtReg c _ _ _ _ _ _ => some c
  | .strbtImm c _ _ _ _ => some c
  | .strbtReg c _ _ _ _ _ _ => some c
  | .ldrtImm c _ _ _ _ => some c
  | .ldrtReg c _ _ _ _ _ _ => some c
  | .ldrbtImm c _ _ _ _ => some c
  | .ldrbtReg c _ _ _ _ _ _ => some c
  | .strhReg c _ _ _ _ _ _ _ => some c
  | .strhImm c _ _ _ _ _ _ _ => some c
  | .ldrhReg c _ _ _ _ _ _ _ => some c
  | .ldrhImm c _ _ _ _ _ _ _ => some c
  | .ldrsbReg c _ _ _ _ _ _ _ => some c
  | .ldrsbImm c _ _ _ _ _ _ _ => some c
  | .ldrshReg c _ _ _ _ _ _ _ => some c
  | .ldrshImm c _ _ _ _ _ _ _ => some c
  | .reservedLsh10Reg c _ _ _ _ _ _ _ => some c
  | .reservedLsh10Imm c _ _ _ _ _ _ _ => some c
  | .reservedLsh11Reg c _ _ _ _ _ _ _ => some c
  | .reservedLsh11Imm c _ _ _ _ _ _ _ => some c
  | .stmda c _ _ _ => some c
  | .stmia c _ _ _ => some c
  | .stmdb c _ _ _ => some c
  | .stmib c _ _ _ => some c
  | .ldmda c _ _ _ => some c
  | .ldmia c _ _ _ => some c
  | .ldmdb c _ _ _ => some c
  | .ldmib c _ _ _ => some c
  | .stmdaUser c _ _ _ => some c
  | .stmiaUser c _ _ _ => some c
  | .stmdbUser c _ _ _ => some c
  | .stmibUser c _ _ _ => some c
  | .ldmdaUser c _ _ _ => some c
  | .ldmiaUser c _ _ _ => some c
  | .ldmdbUser c _ _ _ => some c
  | .ldmibUser c _ _ _ => some c
  | .ldmdaRet c _ _ _ => some c
  | .ldmiaRet c _ _ _ => some c
  | .ldmdbRet c _ _ _ => some c
  | .ldmibRet c _ _ _ => some c
  | .b c _ => some c
  | .bl c _ => some c
  | .swi c _ => some c
  | .cdp c _ _ _ _ _ _ => some c
  | .ldc c _ _ _ _ _ _ _ _ => some c
  | .stc c _ _ _ _ _ _ _ _ => some c
  | .mcr c _ _ _ _ _ _ => some c
  | .mrc c _ _ _ _ _ _ => some c
  | .undMul c _ => some c
  | .undMisc1 c _ => some c
  | .undMisc23 c _ => some c
  | .undMisc45 c _ => some c
  | .undMiscHigh c _ => some c
  | .undSwapOdd c _ => some c
  | .undSwapW c _ => some c
  | .undMisc1Row16 c _ => some c
  | .undSwapHigh c _ => some c
  | .undPsrImm c _ => some c
  | .undMedia c _ => some c
  | _ => none

/-- The SBZ and SBO fields are as R164 and R503 require. -/
def Instr.fixedFieldsOk : Instr → Bool
  | .tstImm _ _ sbz _ _ => sbz == 0
  | .tstShift _ _ sbz _ _ _ => sbz == 0
  | .tstRegShift _ _ sbz _ _ _ => sbz == 0
  | .teqImm _ _ sbz _ _ => sbz == 0
  | .teqShift _ _ sbz _ _ _ => sbz == 0
  | .teqRegShift _ _ sbz _ _ _ => sbz == 0
  | .cmpImm _ _ sbz _ _ => sbz == 0
  | .cmpShift _ _ sbz _ _ _ => sbz == 0
  | .cmpRegShift _ _ sbz _ _ _ => sbz == 0
  | .cmnImm _ _ sbz _ _ => sbz == 0
  | .cmnShift _ _ sbz _ _ _ => sbz == 0
  | .cmnRegShift _ _ sbz _ _ _ => sbz == 0
  | .movImm _ _ sbz _ _ _ => sbz == 0
  | .movShift _ _ sbz _ _ _ _ => sbz == 0
  | .movRegShift _ _ sbz _ _ _ _ => sbz == 0
  | .mvnImm _ _ sbz _ _ _ => sbz == 0
  | .mvnShift _ _ sbz _ _ _ _ => sbz == 0
  | .mvnRegShift _ _ sbz _ _ _ _ => sbz == 0
  | .mrs _ _ sbo _ sbzHi sbzLo => sbo == 0xF && sbzHi == 0 && sbzLo == 0
  | .msrReg _ _ _ sbo sbz _ => sbo == 0xF && sbz == 0
  | .msrImm _ _ _ sbo _ _ => sbo == 0xF
  | .mul _ _ _ sbz _ _ => sbz == 0
  | .swp _ _ _ sbz _ => sbz == 0
  | .swpb _ _ _ sbz _ => sbz == 0
  | .bx _ sbo _ => sbo == 0xFFF
  | .strhReg _ _ _ _ _ _ sbz _ => sbz == 0
  | .ldrhReg _ _ _ _ _ _ sbz _ => sbz == 0
  | .ldrsbReg _ _ _ _ _ _ sbz _ => sbz == 0
  | .ldrshReg _ _ _ _ _ _ sbz _ => sbz == 0
  | .tBx _ _ sbz => sbz == 0
  | _ => true

/-- The encoding space is one the architecture defines: not the reserved halfword encodings (R329) and not
THUMB BX with H1 = 1 (R503). -/
def Instr.allocated : Instr → Bool
  | .reservedLsh10Reg _ _ _ _ _ _ _ _ => false
  | .reservedLsh10Imm _ _ _ _ _ _ _ _ => false
  | .reservedLsh11Reg _ _ _ _ _ _ _ _ => false
  | .reservedLsh11Imm _ _ _ _ _ _ _ _ => false
  | .tBxH1 _ _ _ => false
  | _ => true

/-- A well-formed instruction: encodable, in a defined space, its condition not the reserved NV (R187), its
SBZ and SBO fields right (R164). What a handler checks of the registers (R165) is no part of this. -/
def Instr.wellFormed (i : Instr) : Bool :=
  i.encodable && i.allocated && i.fixedFieldsOk && (i.cond? != some .nv)

end Sys2Proof
end

