-- ==== Sys2Proof/Safety.lean ====
section
/-! DEFINITION. What counts as a sound state between steps, and the terms in which the claims say what an
instruction changes and what it keeps. -/

namespace Sys2Proof.Machine

/-! ## Sound states -/

/-- The mode field is one of the seven modes (R30). -/
def State.modeLegal (s : State) : Prop := s.cpsr.mode.isSome = true

/-- The stored pc is a multiple of the opcode size (R87, R189). -/
def State.pcAligned (s : State) : Prop := alignTo s.opWidth s.pc = s.pc

/-- In THUMB state a latch holds a 16-bit opcode zero-extended (R47). -/
def State.latchFits (s : State) (l : Word) : Prop := s.cpsr.t = true → l.toNat < 2 ^ 16

/-- The invariant of a machine between steps: the canonical memory, a legal mode, an aligned pc, latches that fit
the instruction-set state, and no hook, whose effect is the host's (R535). -/
structure State.Inv (s : State) : Prop where
  memWf : s.mem.wf = true
  modeOk : s.modeLegal
  pcOk : s.pcAligned
  decodedOk : s.latchFits s.decoded
  fetchedOk : s.latchFits s.fetched
  noHook : s.hook = none

/-- A run has stopped: the fault record is set (R14). -/
def State.stopped (s : State) : Prop := s.faultRecord.isSome = true

/-- The UNPREDICTABLE cases of an instruction that the policy decides do not stop it: the policy is `implement`,
or none of them arises: not U27, and not those whose absence `p` says (R13). -/
def State.Lenient (s : State) (p : Prop) : Prop :=
  s.params.unpred = .implement ∨ (s.userBankHazard = false ∧ p)

/-! ## What an instruction keeps -/

/-- Every byte of memory reads as before. -/
def State.MemKept (s t : State) : Prop := ∀ x : Word, t.mem.byteAt x = s.mem.byteAt x

/-- One store of the low bytes of `v` was made at `a`: memory holds them, unless the host ignores writes there (R85),
and every byte outside those stored keeps its value. -/
structure State.Wrote (s t : State) (a : Word) (w : Width) (v : Word) : Prop where
  stored : s.params.drops a = false → t.mem.load a w = w.low v
  kept : ∀ x : Word, (s.params.drops a = false → w.bytes ≤ (x - a).toNat) → t.mem.byteAt x = s.mem.byteAt x

/-- Every general register but those some numbers name in the current mode keeps its value, and so do the SPSRs,
the parameters, the hook, the fault record and the running total of cycles. -/
structure State.Frame (s t : State) (rs : List RegNum) : Prop where
  regs : ∀ p : PhysReg, (∀ r ∈ rs, s.bank.reg r ≠ some p) → t.regs.get p = s.regs.get p
  spsrs : t.spsrs = s.spsrs
  params : t.params = s.params
  hook : t.hook = s.hook
  record : t.faultRecord = s.faultRecord
  total : t.totalCycles = s.totalCycles

/-- The end of an instruction that does not branch (R191): the next fetch with flag `q`, after `k` other cycles. -/
structure State.Advanced (s t : State) (q : Seq) (k : Nat) : Prop where
  pc : t.pc = s.pc + s.opSize
  decoded : t.decoded = s.decoded
  fetched : t.fetched = t.portRead .code (alignTo s.opWidth s.pc) s.opWidth
  cycles : t.cycles = s.cycles + k + s.params.cost (alignTo s.opWidth s.pc) s.opWidth .code q

/-- The end of an instruction that branches (R189): both latches fresh from the aligned target in the state `t` is
in, after `k` other cycles. -/
structure State.Branched (s t : State) (target : Word) (k : Nat) : Prop where
  pc : t.pc = alignTo t.opWidth target + t.opSize + t.opSize
  decoded : t.decoded = t.portRead .code (alignTo t.opWidth target) t.opWidth
  fetched : t.fetched = t.portRead .code (alignTo t.opWidth target + t.opSize) t.opWidth
  cycles : t.cycles = s.cycles + k + s.params.cost s.pc t.opWidth .code .seq +
    s.params.cost (alignTo t.opWidth target) t.opWidth .code .nonSeq +
    s.params.cost (alignTo t.opWidth target + t.opSize) t.opWidth .code .seq

/-- An outcome is a next state that has these register values and this CPSR, `k` cycles besides the fetch and `d`
free values drawn; every other register, the memory and the rest are kept. -/
def State.Computes (s : State) (r : Result State) (ws : List (RegNum × Word)) (p : Psr) (k d : Nat) : Prop :=
  ∃ t, r = .next t ∧ (∀ w ∈ ws, t.readReg w.1 = w.2) ∧ t.cpsr = p ∧ s.Frame t (ws.map Prod.fst) ∧
    s.MemKept t ∧ s.Advanced t .seq k ∧ t.draws = s.draws + d

/-- An outcome is a next state that continues at a target, with these register values and this CPSR, `k` cycles
besides those of the branch and `d` free values drawn; the rest is kept. -/
def State.Branches (s : State) (r : Result State) (target : Word) (ws : List (RegNum × Word)) (p : Psr)
    (k d : Nat) : Prop :=
  ∃ t, r = .next t ∧ (∀ w ∈ ws, s.bank.reg w.1 = none ∨ t.readBank s.bank w.1 = w.2) ∧ t.cpsr = p ∧
    s.Frame t (ws.map Prod.fst) ∧ s.MemKept t ∧ s.Branched t target k ∧ t.draws = s.draws + d

/-- An outcome is a next state in which one access of a width at `ea` stored the low bytes of `v`, with these
register values, `k` cycles besides the access and the (non-sequential) fetch; the rest is kept. -/
def State.Stores (s : State) (r : Result State) (ea : Word) (w : Width) (v : Word)
    (ws : List (RegNum × Word)) : Prop :=
  ∃ t, r = .next t ∧ s.Wrote t ea w v ∧ (∀ x ∈ ws, t.readReg x.1 = x.2) ∧ t.cpsr = s.cpsr ∧
    s.Frame t (ws.map Prod.fst) ∧ s.Advanced t .nonSeq (s.params.cost ea w .data .nonSeq) ∧ t.draws = s.draws

/-- The registers a load or store with write-back leaves: the base, unless a load's Rd is the base (R311, R318). -/
def State.written (rn : RegNum) (a : Address) (rd : Option (RegNum × Word)) : List (RegNum × Word) :=
  match rd with
  | some x => if a.wb = true ∧ rn ≠ x.1 then [x, (rn, a.offaddr)] else [x]
  | none => if a.wb = true then [(rn, a.offaddr)] else []

/-! ## The ALU as the spec tabulates it -/

/-- The result of a data-processing operation (R240); `c` is CPSR.C. -/
def dpResult (op : DpOp) (l r : Word) (c : Bool) : Word :=
  match op with
  | .and => l &&& r
  | .eor => l ^^^ r
  | .sub => l - r
  | .rsb => r - l
  | .add => l + r
  | .adc => l + r + (if c then 1 else 0)
  | .sbc => l - r - (if c then 0 else 1)
  | .rsc => r - l - (if c then 0 else 1)
  | .tst => l &&& r
  | .teq => l ^^^ r
  | .cmp => l - r
  | .cmn => l + r
  | .orr => l ||| r
  | .mov => r
  | .bic => l &&& ~~~r
  | .mvn => ~~~r

/-- The carry of a data-processing operation by its class (R239), by exact sums of unsigned values (R233 to R237);
`sc` is the shifter carry-out, `c` CPSR.C. -/
def dpCarry (op : DpOp) (l r : Word) (sc c : Bool) : Bool :=
  match op with
  | .sub => decide (r.toNat ≤ l.toNat)
  | .cmp => decide (r.toNat ≤ l.toNat)
  | .rsb => decide (l.toNat ≤ r.toNat)
  | .add => decide (2 ^ 32 ≤ l.toNat + r.toNat)
  | .cmn => decide (2 ^ 32 ≤ l.toNat + r.toNat)
  | .adc => decide (2 ^ 32 ≤ l.toNat + r.toNat + (if c then 1 else 0))
  | .sbc => decide (r.toNat + (if c then 0 else 1) ≤ l.toNat)
  | .rsc => decide (l.toNat + (if c then 0 else 1) ≤ r.toNat)
  | _ => sc

/-- A sum of signed values lies outside the 32-bit range (R233). -/
def outOfRange (x : Int) : Bool := decide (x < -(2 ^ 31) ∨ 2 ^ 31 ≤ x)

/-- The overflow of a subtraction `l - r` with result `d`, by the formula of R234 and R236. -/
def xorOverflow (l r d : Word) : Bool := (l.msb != r.msb) && (l.msb != d.msb)

/-- The overflow of a data-processing operation by its class (R239, R233 to R237); `v` is CPSR.V. -/
def dpOverflow (rule : AdcVRule) (op : DpOp) (l r : Word) (c v : Bool) : Bool :=
  match op with
  | .sub => outOfRange (l.toInt - r.toInt)
  | .cmp => outOfRange (l.toInt - r.toInt)
  | .rsb => outOfRange (r.toInt - l.toInt)
  | .add => outOfRange (l.toInt + r.toInt)
  | .cmn => outOfRange (l.toInt + r.toInt)
  | .adc =>
    match rule with
    | .architectural => outOfRange (l.toInt + r.toInt + (if c then 1 else 0))
    | .twoStageOr => outOfRange (l.toInt + r.toInt) || outOfRange ((l + r).toInt + (if c then 1 else 0))
  | .sbc => xorOverflow l r (dpResult .sbc l r c)
  | .rsc => xorOverflow r l (dpResult .rsc l r c)
  | _ => v

/-- A status register after a result sets all four flags (R232, R239). -/
def Psr.flagged (p : Psr) (res : Word) (c v : Bool) : Psr :=
  { p with n := res.getLsbD 31, z := decide (res = 0), c := c, v := v }

/-- The status register after a data-processing operation sets the flags (R239). -/
def dpFlags (rule : AdcVRule) (op : DpOp) (l r : Word) (sc : Bool) (p : Psr) : Psr :=
  p.flagged (dpResult op l r p.c) (dpCarry op l r sc p.c) (dpOverflow rule op l r p.c p.v)

end Sys2Proof.Machine

namespace Sys2Proof

/-- The operation is one of the four that write no register (R261). -/
def DpOp.isTest (op : DpOp) : Bool := op == .tst || op == .teq || op == .cmp || op == .cmn

end Sys2Proof

namespace Sys2Proof.Machine

/-- The register that holds a shift amount. -/
def Operand2.amountReg : Operand2 → Option RegNum
  | .regShift rs _ _ => some rs
  | _ => none

/-- Operand2 is shifted by a register (R127). -/
def Operand2.isRegShift (o : Operand2) : Bool := o.amountReg.isSome

/-! ## Block transfers -/

/-- What the words of a block transfer cost: the first with flag `q`, the others sequential (R351, R584). -/
def State.blockCost (s : State) (start : Word) (q : Seq) : Nat → Nat
  | 0 => 0
  | n + 1 => s.params.cost (alignTo .word start) .word .data q + s.blockCost (start + 4) .seq n

/-- The address of the k-th word of a block transfer (R350). -/
def blockAddr (start : Word) (k : Nat) : Word := alignTo .word (start + 4 * BitVec.ofNat 32 k)

/-- The words of a block store are in memory, and no other byte changed: the k-th register of the list, `value k r`,
at the k-th address (R350, R351), unless the host ignores writes there (R85). -/
structure State.BlockStored (s t : State) (start : Word) (rs : List RegNum) (value : Nat → RegNum → Word) : Prop where
  stored : ∀ k r, rs[k]? = some r → s.params.drops (blockAddr start k) = false →
    t.mem.load (blockAddr start k) .word = value k r
  kept : ∀ x : Word, (∀ k, k < rs.length → s.params.drops (blockAddr start k) = false →
    4 ≤ (x - blockAddr start k).toNat) → t.mem.byteAt x = s.mem.byteAt x

/-- The registers of a block load, other than R15, hold the words of the k-th addresses; `bank` is the bank they are
loaded into (R350, R352, R354). -/
def State.BlockLoaded (s t : State) (bank : Bank) (start : Word) (rs : List RegNum) : Prop :=
  ∀ k r, rs[k]? = some r → r ≠ 15 → t.readBank bank r = s.memRead (blockAddr start k) .word

/-- The base is written back: its value is `newbase`, unless a load of the base overwrote it (R351, R352). -/
def State.BaseWritten (s t : State) (w : Bool) (rn : RegNum) (loaded : List RegNum) (newBase : Word) : Prop :=
  w = true → rn ∉ loaded → t.readBank s.bank rn = newBase

/-! ## Exceptions -/

/-- The state after an exception entry (R530), but for the pipeline: R14 and SPSR of the entered mode written,
mode, T, I and F set, everything else kept. -/
structure State.Entered (s t : State) (k : ExceptionKind) (lr : Word) (saved : Psr) : Prop where
  link : ∀ p, k.mode.bank.reg 14 = some p → t.regs.get p = lr
  regs : ∀ p, k.mode.bank.reg 14 ≠ some p → t.regs.get p = s.regs.get p
  saved : t.spsrs.get k.mode.bank = saved
  spsrs : ∀ b, b ≠ k.mode.bank → t.spsrs.get b = s.spsrs.get b
  cpsr : t.cpsr = { s.cpsr with
    m := k.mode.bits, t := false, i := k.forcesI || s.cpsr.i, f := k.forcesF || s.cpsr.f }
  mem : s.MemKept t
  params : t.params = s.params
  hook : t.hook = s.hook
  record : t.faultRecord = s.faultRecord

end Sys2Proof.Machine
end

