-- ==== Sys2Proof/Certificates/Slice0/Obligations.lean ====
section
/-! DEFINITION. The statements for the provers, from the numbered rules of spec/. -/

open Sys2Proof Sys2Proof.Machine

/-! ## Encoding -/

/-- A few words written out from the formats of 30_encoding.md decode to the instruction they stand for. -/
def Obligations.DecodeWords : Prop :=
  decodeTableWord 32 0xE3A00001 = some (.movImm .al false 0 0 0 1) ∧
  decodeTableWord 32 0xE2533005 = some (.subImm .al true 3 3 0 5) ∧
  decodeTableWord 32 0xE1B00021 = some (.movShift .al true 0 0 0 .lsr 1) ∧
  decodeTableWord 32 0xE0203291 = some (.mla .al false 0 3 2 1) ∧
  decodeTableWord 32 0xE5210004 = some (.strImmPre .al false true 1 0 4) ∧
  decodeTableWord 32 0xE1D100B2 = some (.ldrhImm .al true true false 1 0 0 2) ∧
  decodeTableWord 32 0xE92D4003 = some (.stmdb .al true 13 0x4003) ∧
  decodeTableWord 32 0xEAFFFFFE = some (.b .al 0xFFFFFE) ∧
  decodeTableWord 32 0xE12FFF10 = some (.bx .al 0xFFF 0) ∧
  decodeTableWord 32 0xE328F20F = some (.msrImm .al false 8 15 2 0x0F) ∧
  decodeTableWord 16 0x1C48 = some (.tAddImm3 1 1 0) ∧
  decodeTableWord 16 0x4480 = some (.tAddHi true false 0 0) ∧
  decodeTableWord 16 0xB501 = some (.tPush true 1) ∧
  decodeTableWord 16 0xD0FE = some (.tBeq 0xFE)

/-- The decoder reads back every instruction the encoder writes, byte by byte and with the rest of the bytes left
(R120, R124 to R160): no field of an encoding is dropped. -/
def Obligations.DecodeEncode : Prop :=
  ∀ (i : Instr) (rest : List Byte), i.encodable = true →
    decodeBytes (match i.encode with | .arm _ => false | .thumb _ => true) (i.encode.bytes ++ rest) = .ok (i, rest)

/-- Every ARM word and every THUMB halfword is the encoding of the instruction it decodes to (R140, R161, R195):
the decoder is total and no two words share an instruction. -/
def Obligations.EncodeDecode : Prop :=
  (∀ w : Word, (decodeArm w).encode = .arm w ∧ (decodeArm w).encodable = true) ∧
  (∀ h : Half, (decodeThumb h).encode = .thumb h ∧ (decodeThumb h).encodable = true)

/-! ## The step and the pipeline -/

/-- A step of a running machine whose `decoded` latch holds the opcode at A is the meaning of the instruction that
the bytes at A decode to, from the state with `fetched` promoted, `cycles` at 0 and the counter of free values
advanced (the model's field, log 6); then the step's cycles are added to the total (R181, R182, R183). -/
def Obligations.StepRunsDecoded : Prop :=
  ∀ (s : State) (m : Mode) (i : Instr) (rest : List Byte),
    s.faultRecord = none → s.cpsr.mode = some m →
    s.decoded = s.mem.load s.instrAddr s.opWidth →
    decodeBytes s.cpsr.t
      [s.mem.byteAt s.instrAddr, s.mem.byteAt (s.instrAddr + 1), s.mem.byteAt (s.instrAddr + 2),
        s.mem.byteAt (s.instrAddr + 3)] = .ok (i, rest) →
    step s =
      match exec i { s with decoded := s.fetched, cycles := 0, draws := s.draws + 1 } with
      | .next t => .next { t with totalCycles := t.totalCycles + t.cycles }
      | .fault f => .fault f
      | .refused r => .refused r

/-- A stopped machine stays stopped with its record and returns 0, and an invalid mode faults (R14, R31, R181). That
`step` answers the recorded fault again, and that the very step that faults returns 0 and changes the record alone, is
the model's choice (log 10). -/
def Obligations.StepStops : Prop :=
  (∀ (s : State) (f : Fault), s.faultRecord = some f → step s = .fault f ∧ hostStep s = (0, s)) ∧
  (∀ s : State, s.faultRecord = none → s.cpsr.mode = none → step s = .fault (.invalidMode s.instrAddr)) ∧
  (∀ (s : State) (f : Fault), s.faultRecord = none → step s = .fault f →
    hostStep s = (0, { s with faultRecord := some f }))

/-- A branch refills both latches at the aligned target, so the next instruction is the one there (R189, R183);
`set_pc` does the same and charges the total alone (R190). -/
def Obligations.Refill : Prop :=
  ∀ (s : State) (x : Word),
    s.Branched (s.branchTo x) x 0 ∧ (s.branchTo x).instrAddr = alignTo s.opWidth x ∧
    (s.branchTo x).regs = s.regs ∧ (s.branchTo x).cpsr = s.cpsr ∧ (s.branchTo x).mem = s.mem ∧
    (s.setPc x).instrAddr = alignTo s.opWidth x ∧
    (s.setPc x).decoded = (s.setPc x).portRead .code (s.setPc x).instrAddr s.opWidth ∧
    (s.setPc x).fetched = (s.setPc x).portRead .code ((s.setPc x).instrAddr + s.opSize) s.opWidth ∧
    (s.setPc x).pc = (s.branchTo x).pc ∧ (s.setPc x).cycles = s.cycles ∧
    (s.setPc x).totalCycles + s.cycles + s.params.cost s.pc s.opWidth .code .seq =
      s.totalCycles + (s.branchTo x).cycles ∧
    (s.setPc x).regs = s.regs ∧ (s.setPc x).cpsr = s.cpsr ∧ (s.setPc x).mem = s.mem

/-- An ARM instruction whose condition fails changes no register, flag or memory: the next fetch alone (R188); NV
never passes under `implement` and is U1 under `fault` (R187). -/
def Obligations.ConditionFailed : Prop :=
  ∀ (i : Instr) (c : Cond) (s : State), i.cond? = some c → c.passes s.cpsr = false →
    ((c ≠ .nv ∨ s.params.unpred = .implement) → s.Computes (exec i s) [] s.cpsr 0 0) ∧
    (c = .nv → s.params.unpred = .fault → exec i s = .fault (.unpredictable .u1 s.instrAddr))

/-- The condition table, by field value (R186). -/
def Obligations.ConditionTable : Prop :=
  ∀ p : Psr,
    (Cond.ofBits 0).passes p = p.z ∧ (Cond.ofBits 1).passes p = !p.z ∧
    (Cond.ofBits 2).passes p = p.c ∧ (Cond.ofBits 3).passes p = !p.c ∧
    (Cond.ofBits 4).passes p = p.n ∧ (Cond.ofBits 5).passes p = !p.n ∧
    (Cond.ofBits 6).passes p = p.v ∧ (Cond.ofBits 7).passes p = !p.v ∧
    (Cond.ofBits 8).passes p = (p.c && !p.z) ∧ (Cond.ofBits 9).passes p = (!p.c || p.z) ∧
    (Cond.ofBits 10).passes p = (p.n == p.v) ∧ (Cond.ofBits 11).passes p = (p.n != p.v) ∧
    (Cond.ofBits 12).passes p = (!p.z && (p.n == p.v)) ∧ (Cond.ofBits 13).passes p = (p.z || (p.n != p.v)) ∧
    (Cond.ofBits 14).passes p = true ∧ (Cond.ofBits 15).passes p = false

/-! ## Reset -/

/-- `reset_registers` does exactly what R571 says, and after hardware reset the machine is as R570 and R51 give it:
Supervisor mode, IRQ and FIQ disabled, ARM state, the latches filled from the Reset vector, no hook, no fault.
`Params.default` has the values R8 gives; `State.reset` takes R8's alternative for UNPRED_POLICY (the model's choice,
log 1). -/
def Obligations.ResetState : Prop :=
  (∀ s : State, s.resetRegisters =
    { s with cpsr := { s.cpsr with m := 0x13, i := true, f := true, t := false } }) ∧
  (∀ (m : Mem) (p : Params), p.exceptionBase = 0 →
    let s := hardwareReset m p
    s.cpsr.m = 0x13 ∧ s.cpsr.i = true ∧ s.cpsr.f = true ∧ s.cpsr.t = false ∧
    s.decoded = s.portRead .code 0 .word ∧ s.fetched = s.portRead .code 4 .word ∧ s.pc = 8 ∧ s.instrAddr = 0 ∧
    s.hook = none ∧ s.faultRecord = none ∧ s.cycles = 0 ∧ s.mem = m ∧ s.params = p ∧
    s.totalCycles = p.cost 0 .word .code .nonSeq + p.cost 4 .word .code .seq) ∧
  (Params.default.unpred = .fault ∧ Params.default.coproc = .undefined ∧ Params.default.adcV = .architectural ∧
    Params.default.storePcOffset = 12 ∧ Params.default.exceptionBase = 0) ∧
  State.reset = hardwareReset [] { Params.default with unpred := .implement }

/-- The invariant holds right after hardware reset, and in the model's reset state. -/
def Obligations.ResetInv : Prop :=
  State.reset.Inv ∧ ∀ (m : Mem) (p : Params), m.wf = true → (hardwareReset m p).Inv

/-! ## Invariants of every step -/

/-- Every step keeps the invariant: canonical memory, one of the seven modes (R30), an aligned pc (R87), latches
that fit the instruction-set state (R47), no hook. -/
def Obligations.InvKept : Prop := ∀ s t : State, s.Inv → step s = .next t → t.Inv

/-- Every step, with or without a hook, keeps the canonical form of memory. -/
def Obligations.MemWfKept : Prop := ∀ s t : State, s.mem.wf = true → step s = .next t → t.mem.wf = true

/-- A step keeps the parameters, the hook and the clear fault record, adds its own cycles to the total (R586), and
advances the counter of free values (log 6, 8). -/
def Obligations.StepKeeps : Prop :=
  ∀ s t : State, step s = .next t →
    t.params = s.params ∧ t.hook = s.hook ∧ s.faultRecord = none ∧ t.faultRecord = none ∧
    t.totalCycles = s.totalCycles + t.cycles ∧ s.draws < t.draws

/-- User mode leaves only by an exception, and while in it no step changes what it may not (R541, R542): a step from
User mode either stays in it, with I, F, the SPSRs and every banked register kept, or enters
Supervisor or Undefined mode at the vector, with the old CPSR saved (under `UNPRED_POLICY = fault`, no hook). -/
def Obligations.UserModeLeaves : Prop :=
  ∀ s t : State, s.params.unpred = .fault → s.hook = none → s.cpsr.m = 0x10 → step s = .next t →
    (t.cpsr.m = 0x10 ∧ t.cpsr.i = s.cpsr.i ∧ t.cpsr.f = s.cpsr.f ∧ t.spsrs = s.spsrs ∧
      ∀ p : PhysReg, (∀ k, p ≠ .usr k) → t.regs.get p = s.regs.get p) ∨
    (∃ k : ExceptionKind, (k = .swi ∨ k = .undefined) ∧ t.cpsr.m = k.mode.bits ∧ t.cpsr.i = true ∧ t.cpsr.t = false ∧
      t.spsrs.get k.mode.bank = s.cpsr ∧ t.instrAddr = alignTo .word (s.params.exceptionBase + k.offset))

/-- Where the `fault` policy lets an instruction go on, the `implement` policy does the same: the policy matters only
where an UNPREDICTABLE case arises (R13). -/
def Obligations.PolicyAgrees : Prop :=
  ∀ (i : Instr) (s t : State), s.hook = none → s.params.unpred = .fault → exec i s = .next t →
    exec i { s with params := { s.params with unpred := .implement } } =
      .next { t with params := { t.params with unpred := .implement } }

/-! ## Registers and memory -/

/-- Banks (R34, R35, R36): in one bank a write is seen by reads of the same register and by no other; a write of R13
or R14 is seen in no other bank, R0 to R7 are shared by all, R8 to R12 by all but FIQ, whose own are apart. -/
def Obligations.BankIsolation : Prop :=
  (∀ (s : State) (b : Bank) (r r' : RegNum) (v : Word), r ≠ 15 →
    (s.writeBank b r v).readBank b r' = if r' = r then v else s.readBank b r') ∧
  (∀ (s : State) (b b' : Bank) (r r' : RegNum) (v : Word), b ≠ b' → (r = 13 ∨ r = 14) →
    (s.writeBank b r v).readBank b' r' = s.readBank b' r') ∧
  (∀ (s : State) (b b' : Bank) (r : RegNum), r.toNat < 8 → s.readBank b r = s.readBank b' r) ∧
  (∀ (s : State) (b b' : Bank) (r : RegNum), r.toNat < 13 → b ≠ .fiq → b' ≠ .fiq →
    s.readBank b r = s.readBank b' r) ∧
  (∀ (s : State) (b : Bank) (r r' : RegNum) (v : Word), 8 ≤ r.toNat → b ≠ .fiq →
    (s.writeBank .fiq r v).readBank b r' = s.readBank b r') ∧
  (∀ (s : State) (b : Bank) (r r' : RegNum) (v : Word), 8 ≤ r.toNat → r.toNat < 13 → b ≠ .fiq →
    (s.writeBank b r v).readBank .fiq r' = s.readBank .fiq r')

/-- Byte order (R86): a byte load at a + k after a word store of w at a gives byte k of w, a halfword store changes
two bytes and a byte store one; every other byte keeps its value. The core presents the multiple of the width not
above an address (R87). The port (R85): outside the windows in which the host answers, a read gives those bytes, in one
it gives a free value of its width (V4); a write stores at its address or, in a window that drops it, nowhere. The
windows are the model's form of the host's choice (log 6). -/
def Obligations.ByteOrder : Prop :=
  (∀ (m : Mem) (a w : Word) (k : Nat), k < 4 →
    (m.store a w .word).byteAt (a + BitVec.ofNat 32 k) = w.extractLsb' (8 * k) 8) ∧
  (∀ (m : Mem) (a w : Word) (k : Nat), k < 2 →
    (m.store a w .half).byteAt (a + BitVec.ofNat 32 k) = w.extractLsb' (8 * k) 8) ∧
  (∀ (m : Mem) (a w : Word), (m.store a w .byte).byteAt a = w.extractLsb' 0 8) ∧
  (∀ (m : Mem) (a w x : Word) (wd : Width), wd.bytes ≤ (x - a).toNat → (m.store a w wd).byteAt x = m.byteAt x) ∧
  (∀ (m : Mem) (a : Word), m.load a .half = (m.byteAt (a + 1) ++ m.byteAt a).setWidth 32 ∧
    m.load a .word = m.byteAt (a + 3) ++ m.byteAt (a + 2) ++ m.byteAt (a + 1) ++ m.byteAt a) ∧
  (∀ (m : Mem) (a : Word) (wd : Width), (m.load a wd).toNat < 2 ^ (8 * wd.bytes)) ∧
  (∀ (a : Word) (wd : Width), (alignTo wd a).toNat = a.toNat / wd.bytes * wd.bytes) ∧
  (∀ (p : Params) (a : Word),
    (p.answers a = true ↔ ∃ x ∈ p.windows, x.lo ≤ a.toNat ∧ a.toNat ≤ x.hi ∧ x.answers = true) ∧
    (p.drops a = true ↔ ∃ x ∈ p.windows, x.lo ≤ a.toNat ∧ a.toNat ≤ x.hi ∧ x.drops = true)) ∧
  (∀ (s : State) (k : AccessKind) (a : Word) (wd : Width),
    s.portRead k a wd = (if s.params.answers a = true then wd.low (Config.portAnswer s.draws k a wd)
      else s.mem.load a wd) ∧
    (s.portRead k a wd).toNat < 2 ^ (8 * wd.bytes) ∧ s.memRead a wd = s.portRead .data a wd) ∧
  (∀ (s : State) (a v : Word) (wd : Width) (q : Seq), s.Wrote (s.memWrite a wd v q) a wd v)

/-! ## The barrel shifter and the ALU -/

/-- The immediate rotate (R221) and a shift by an immediate amount (R222 to R225), exactly: LSR #0 and ASR #0 mean 32,
ROR #0 is RRX. Operand2 is one of them or a register shift (R260), of a register that reads as `x[r]`; as R15 it is
A + 8 in ARM state and A + 4 in THUMB state, in the register-shift form A + 12 (R184, R185). -/
def Obligations.ShiftImmediate : Prop :=
  (∀ (rot : BitVec 4) (imm : Byte) (cin : Bool),
    (∀ k, k < 32 → (rotateImm rot imm cin).res.getLsbD k = imm.getLsbD ((k + 2 * rot.toNat) % 32)) ∧
    (rotateImm rot imm cin).c = if rot = 0 then cin else (rotateImm rot imm cin).res.getLsbD 31) ∧
  (∀ (s : State) (o : Operand2) (rot : BitVec 4) (imm : Byte) (amt : BitVec 5) (rs rm : RegNum) (k : ShiftKind),
    let cin := s.cpsr.c
    let pc12 := fun r : RegNum => if r = 15 then s.instrAddr + 12 else s.readReg r
    (Operand2.imm rot imm).value s = rotateImm rot imm cin ∧
    (Operand2.shift amt k rm).value s = shiftImm k (s.readReg rm) amt cin ∧
    (s.cpsr.t = false → (Operand2.regShift rs k rm).value s =
      shiftReg k (pc12 rm) ((s.readReg rs).extractLsb' 0 8) cin) ∧
    (s.cpsr.t = false → o.readReg s rm = if o.isRegShift = true then pc12 rm else s.readReg rm) ∧
    s.readReg 15 = s.instrAddr + (if s.cpsr.t = true then 4 else 8)) ∧
  ∀ (v : Word) (amt : BitVec 5) (cin : Bool),
    let n := amt.toNat
    let far := if n = 0 then 32 else n
    (shiftImm .lsl v amt cin).res.toNat = v.toNat * 2 ^ n % 2 ^ 32 ∧
    (shiftImm .lsl v amt cin).c = (if n = 0 then cin else v.getLsbD (32 - n)) ∧
    (shiftImm .lsr v amt cin).res.toNat = v.toNat / 2 ^ far ∧
    (shiftImm .lsr v amt cin).c = v.getLsbD (far - 1) ∧
    (shiftImm .asr v amt cin).res.toInt = v.toInt / 2 ^ far ∧
    (shiftImm .asr v amt cin).c = v.getLsbD (far - 1) ∧
    (n ≠ 0 → ∀ k, k < 32 → (shiftImm .ror v amt cin).res.getLsbD k = v.getLsbD ((k + n) % 32)) ∧
    (n = 0 → ∀ k, k < 32 →
      (shiftImm .ror v amt cin).res.getLsbD k = if k = 31 then cin else v.getLsbD (k + 1)) ∧
    (shiftImm .ror v amt cin).c = v.getLsbD (n - 1)

/-- A shift by the low byte of a register, exactly (R226 to R229): 0 changes nothing, 32 and more as the table; the
amount is the register's value modulo 256. -/
def Obligations.ShiftRegister : Prop :=
  (∀ (s : State) (rs : RegNum), (s.shiftAmount rs).toNat = (s.readReg rs).toNat % 2 ^ 8) ∧
  ∀ (v : Word) (amount : Byte) (cin : Bool),
    let n := amount.toNat
    (shiftReg .lsl v amount cin).res.toNat = v.toNat * 2 ^ n % 2 ^ 32 ∧
    (shiftReg .lsl v amount cin).c = (if n = 0 then cin else if n ≤ 32 then v.getLsbD (32 - n) else false) ∧
    (shiftReg .lsr v amount cin).res.toNat = v.toNat / 2 ^ n ∧
    (shiftReg .lsr v amount cin).c = (if n = 0 then cin else if n ≤ 32 then v.getLsbD (n - 1) else false) ∧
    (shiftReg .asr v amount cin).res.toInt = v.toInt / 2 ^ n ∧
    (shiftReg .asr v amount cin).c = (if n = 0 then cin else v.getLsbD (min n 32 - 1)) ∧
    (∀ k, k < 32 → (shiftReg .ror v amount cin).res.getLsbD k = v.getLsbD ((k + n) % 32)) ∧
    (shiftReg .ror v amount cin).c = (if n = 0 then cin else v.getLsbD ((n - 1) % 32))

/-- `AddWithCarry` (R233) and `Sub` (R234): the wrapped result, the carry of the exact unsigned sum (of a subtraction,
"no borrow"), and V, which is the bit formula and says that the exact signed result is out of range. -/
def Obligations.AddSubFlags : Prop :=
  (∀ (l r : Word) (c : Bool),
    let o := addWithCarry l r c
    o.res.toNat = (l.toNat + r.toNat + c.toNat) % 2 ^ 32 ∧
    (o.c = true ↔ 2 ^ 32 ≤ l.toNat + r.toNat + c.toNat) ∧
    (o.v = true ↔ ¬ (-(2 ^ 31 : Int) ≤ l.toInt + r.toInt + c.toNat ∧ l.toInt + r.toInt + c.toNat < 2 ^ 31)) ∧
    o.v = (~~~(l ^^^ r) &&& (l ^^^ o.res)).getLsbD 31) ∧
  (∀ l r : Word,
    let o := sub l r
    o.res = l - r ∧ (o.c = true ↔ r.toNat ≤ l.toNat) ∧ o.v = ((l ^^^ r) &&& (l ^^^ o.res)).getLsbD 31 ∧
    (o.v = true ↔ ¬ (-(2 ^ 31 : Int) ≤ l.toInt - r.toInt ∧ l.toInt - r.toInt < 2 ^ 31))) ∧
  (∀ (rule : AdcVRule) (l r : Word) (sc : Bool) (p : Psr),
    dpAlu rule .add l r sc p = addWithCarry l r false ∧ dpAlu rule .cmn l r sc p = addWithCarry l r false ∧
    dpAlu .architectural .adc l r sc p = addWithCarry l r p.c ∧
    dpAlu rule .sub l r sc p = sub l r ∧ dpAlu rule .cmp l r sc p = sub l r ∧ dpAlu rule .rsb l r sc p = sub r l)

/-- `ADC` and `SBC` (R235, R236): the exact carry, also as the OR of two stages; the two V rules of ADC differ only at
the sum -2^31 - 1 with C = 1; SBC's V is the bit formula. -/
def Obligations.AdcSbcFlags : Prop :=
  (∀ (rule : AdcVRule) (l r : Word) (c : Bool),
    (adc rule l r c).res.toNat = (l.toNat + r.toNat + c.toNat) % 2 ^ 32 ∧
    ((adc rule l r c).c = true ↔ 2 ^ 32 ≤ l.toNat + r.toNat + c.toNat) ∧
    (adc rule l r c).c = ((addWithCarry l r false).c || (addWithCarry (l + r) 0 c).c)) ∧
  (∀ (l r : Word) (c : Bool),
    (adc .architectural l r c).v = outOfRange (l.toInt + r.toInt + c.toNat) ∧
    (adc .twoStageOr l r c).v = (outOfRange (l.toInt + r.toInt) || outOfRange ((l + r).toInt + c.toNat)) ∧
    ((adc .architectural l r c).v ≠ (adc .twoStageOr l r c).v ↔ l.toInt + r.toInt = -(2 ^ 31) - 1 ∧ c = true)) ∧
  (∀ (l r : Word) (c : Bool),
    (sbc l r c).res.toNat = (l.toNat + 2 ^ 32 - r.toNat + 2 ^ 32 - (!c).toNat) % 2 ^ 32 ∧
    ((sbc l r c).c = true ↔ r.toNat + (!c).toNat ≤ l.toNat) ∧
    (sbc l r c).v = ((l ^^^ r) &&& (l ^^^ (sbc l r c).res)).getLsbD 31)

/-- The multiplier cycle count by the value of Rs (R370). -/
def Obligations.MultiplierCycles : Prop :=
  ∀ x : Word,
    (mulCycles x = 1 ↔ -(2 ^ 8) ≤ x.toInt ∧ x.toInt < 2 ^ 8) ∧
    (mulCycles x ≤ 2 ↔ -(2 ^ 16) ≤ x.toInt ∧ x.toInt < 2 ^ 16) ∧
    (mulCycles x ≤ 3 ↔ -(2 ^ 24) ≤ x.toInt ∧ x.toInt < 2 ^ 24) ∧ 1 ≤ mulCycles x ∧ mulCycles x ≤ 4

/-! ## ARM data processing -/

/-- The twelve operations that write Rd, in every operand form, with Rd other than R15 (R260, R261, R239, R240): the
result, the flags where S = 1, everything else kept. -/
def Obligations.DpWriteRegister : Prop :=
  ∀ (c : Cond) (op : DpOp) (sf : Bool) (rn rd : RegNum) (o : Operand2) (s : State),
    c.passes s.cpsr = true → op.isTest = false → rd ≠ 15 → o.amountReg ≠ some 15 →
    s.Lenient ((op.ignoresRn = true → rn = 0) ∧ (o.isRegShift = true → 15 ∉ op.named rn rd ++ o.regs)) →
    let l := o.readReg s rn
    let r := (o.value s).res
    s.Computes (exec (o.instr op c sf rn rd) s) [(rd, dpResult op l r s.cpsr.c)]
      (if sf = true then dpFlags s.params.adcV op l r (o.value s).c s.cpsr else s.cpsr) o.internalCycles 0

/-- Rd = 15 with S = 0: a branch to the result, no flag changes (R262). -/
def Obligations.DpWritePc : Prop :=
  ∀ (c : Cond) (op : DpOp) (rn : RegNum) (o : Operand2) (s : State),
    c.passes s.cpsr = true → op.isTest = false → o.amountReg ≠ some 15 →
    let res := dpResult op (o.readReg s rn) (o.value s).res s.cpsr.c
    s.Lenient ((op.ignoresRn = true → rn = 0) ∧ o.isRegShift = false ∧
      (s.cpsr.t = false → misaligned4 res = false)) →
    s.Branches (exec (o.instr op c false rn 15) s) res [] s.cpsr o.internalCycles 0

/-- Rd = 15 with S = 1 in an exception mode: CPSR becomes the SPSR, then a branch in the restored state (R263). That
this holds of the register-shift form too, under `implement`, where R260 and U4 name R262 for Rd = 15, is the model's
reading (log 27). -/
def Obligations.DpReturn : Prop :=
  ∀ (c : Cond) (op : DpOp) (rn : RegNum) (o : Operand2) (s : State),
    c.passes s.cpsr = true → op.isTest = false → o.amountReg ≠ some 15 → s.hasSpsr = true →
    (s.spsrs.get s.bank).mode ≠ none →
    let res := dpResult op (o.readReg s rn) (o.value s).res s.cpsr.c
    s.Lenient ((op.ignoresRn = true → rn = 0) ∧ o.isRegShift = false ∧
      ((s.spsrs.get s.bank).t = false → misaligned4 res = false)) →
    s.Branches (exec (o.instr op c true rn 15) s) res [] (s.spsrs.get s.bank) o.internalCycles 0

/-- TST, TEQ, CMP and CMN in every operand form: the flags alone (R261, R272 to R275). -/
def Obligations.DpTest : Prop :=
  ∀ (c : Cond) (op : DpOp) (sf : Bool) (rn sbz : RegNum) (o : Operand2) (s : State),
    c.passes s.cpsr = true → op.isTest = true → o.amountReg ≠ some 15 →
    s.Lenient (sbz = 0 ∧ (o.isRegShift = true → 15 ∉ rn :: o.regs)) →
    s.Computes (exec (o.instr op c sf rn sbz) s) []
      (dpFlags s.params.adcV op (o.readReg s rn) (o.value s).res (o.value s).c s.cpsr) o.internalCycles 0

/-! ## PSR transfer -/

/-- MRS (R280): the CPSR or the SPSR into Rd; in User and System mode the SPSR reads as a free value (R43). -/
def Obligations.MrsReads : Prop :=
  ∀ (c : Cond) (r : Bool) (sbo sbzHi sbzLo : BitVec 4) (rd : RegNum) (s : State),
    c.passes s.cpsr = true → rd ≠ 15 → s.Lenient (sbo = 15 ∧ sbzHi = 0 ∧ sbzLo = 0) →
    s.Computes (exec (.mrs c r sbo rd sbzHi sbzLo) s)
      [(rd, if r = false then s.cpsr.toWord
            else if s.hasSpsr = true then (s.spsrs.get s.bank).toWord else Config.freeValue s.draws)]
      s.cpsr 0 (if r = true ∧ s.hasSpsr = false then 1 else 0)

/-- MSR to the CPSR, of a register and of an immediate (R281, R282, R283): the bytes the field mask selects, in User
mode the flags byte alone; T may not change and the mode must be legal. -/
def Obligations.MsrCpsr : Prop :=
  ∀ (c : Cond) (mask sbo : BitVec 4) (s : State) (p : Psr) (v : Word),
    c.passes s.cpsr = true →
    (∀ k, k < 32 → p.toWord.getLsbD k =
      if mask.getLsbD (k / 8) = true ∧ (s.cpsr.m = 0x10 → 24 ≤ k) then v.getLsbD k else s.cpsr.toWord.getLsbD k) →
    p.t = s.cpsr.t → p.mode ≠ none →
    (∀ (sbz : BitVec 4) (rm : RegNum), rm ≠ 15 → v = s.readReg rm → s.Lenient (sbo = 15 ∧ sbz = 0) →
      s.Computes (exec (.msrReg c false mask sbo sbz rm) s) [] p 0 0) ∧
    (∀ (rot : BitVec 4) (imm : Byte), v = (imm.setWidth 32 : Word).rotateRight (2 * rot.toNat) →
      s.Lenient (sbo = 15) → s.Computes (exec (.msrImm c false mask sbo rot imm) s) [] p 0 0)

/-- MSR to the SPSR, of a register and of an immediate (R281 to R283): in an exception mode the selected bytes of that
mode's SPSR and nothing else; in User and System mode U3, under `implement` no effect. -/
def Obligations.MsrSpsr : Prop :=
  ∀ (c : Cond) (mask sbo : BitVec 4) (s : State), c.passes s.cpsr = true →
    let writes := fun (i : Instr) (v : Word) => ∃ t, exec i s = .next t ∧
      (s.hasSpsr = true → ∀ k, k < 32 → (t.spsrs.get s.bank).toWord.getLsbD k =
        if mask.getLsbD (k / 8) = true then v.getLsbD k else (s.spsrs.get s.bank).toWord.getLsbD k) ∧
      (s.hasSpsr = false → t.spsrs = s.spsrs) ∧
      (∀ b, b ≠ s.bank → t.spsrs.get b = s.spsrs.get b) ∧
      t.regs = s.regs ∧ t.cpsr = s.cpsr ∧ s.MemKept t ∧ s.Advanced t .seq 0 ∧ t.draws = s.draws ∧
      t.params = s.params ∧ t.hook = s.hook ∧ t.faultRecord = s.faultRecord
    (∀ (sbz : BitVec 4) (rm : RegNum), rm ≠ 15 → s.Lenient (sbo = 15 ∧ sbz = 0 ∧ s.hasSpsr = true) →
      writes (.msrReg c true mask sbo sbz rm) (s.readReg rm)) ∧
    (∀ (rot : BitVec 4) (imm : Byte), s.Lenient (sbo = 15 ∧ s.hasSpsr = true) →
      writes (.msrImm c true mask sbo rot imm) ((imm.setWidth 32 : Word).rotateRight (2 * rot.toNat)))

/-! ## Multiply -/

/-- MUL and MLA (R371, R372, R377, R378): the low 32 bits; with S = 1 N and Z of them, C a free value, V kept. That MUL
ignores op[15:12] under `implement` also where it is 15, which R377 read literally stops, is the model's reading
(log 25). -/
def Obligations.MultiplyShort : Prop :=
  ∀ (c : Cond) (sf : Bool) (rd rn rs rm : RegNum) (s : State),
    c.passes s.cpsr = true → rd ≠ 15 → rs ≠ 15 → rm ≠ 15 →
    let flags := fun res : Word => if sf = true
      then s.cpsr.flagged res ((Config.freeValue s.draws).getLsbD 0) s.cpsr.v else s.cpsr
    let prod := (s.readReg rm).toNat * (s.readReg rs).toNat
    (s.Lenient (rd ≠ rm ∧ rn = 0) →
      s.Computes (exec (.mul c sf rd rn rs rm) s) [(rd, BitVec.ofNat 32 prod)] (flags (BitVec.ofNat 32 prod))
        (mulCycles (s.readReg rs)) (if sf = true then 1 else 0)) ∧
    (rn ≠ 15 → s.Lenient (rd ≠ rm) →
      s.Computes (exec (.mla c sf rd rn rs rm) s) [(rd, BitVec.ofNat 32 (prod + (s.readReg rn).toNat))]
        (flags (BitVec.ofNat 32 (prod + (s.readReg rn).toNat))) (mulCycles (s.readReg rs) + 1)
        (if sf = true then 1 else 0))

/-- UMULL, UMLAL, SMULL and SMLAL (R373 to R378): the 64-bit result in RdHi and RdLo; with S = 1 N and Z of it, C and V
free values. -/
def Obligations.MultiplyLong : Prop :=
  ∀ (signed acc : Bool) (c : Cond) (sf : Bool) (rdHi rdLo rs rm : RegNum) (s : State),
    c.passes s.cpsr = true → rdHi ≠ 15 → rdLo ≠ 15 → rs ≠ 15 → rm ≠ 15 → rdHi ≠ rdLo →
    s.Lenient (rdHi ≠ rm ∧ rdLo ≠ rm) →
    let a : Nat := if acc = true then 2 ^ 32 * (s.readReg rdHi).toNat + (s.readReg rdLo).toNat else 0
    let res : BitVec 64 :=
      if signed = true then BitVec.ofInt 64 ((s.readReg rm).toInt * (s.readReg rs).toInt + (a : Int))
      else BitVec.ofNat 64 ((s.readReg rm).toNat * (s.readReg rs).toNat + a)
    s.Computes (exec (longMulInstr signed acc c sf rdHi rdLo rs rm) s)
      [(rdLo, res.extractLsb' 0 32), (rdHi, res.extractLsb' 32 32)]
      (if sf = true then { s.cpsr with
          n := res.getLsbD 63, z := decide (res = 0)
          c := (Config.freeValue s.draws).getLsbD 0, v := (Config.freeValue (s.draws + 1)).getLsbD 0 }
        else s.cpsr)
      (mulCycles (s.readReg rs) + (if acc = true then 2 else 1)) (if sf = true then 2 else 0)

/-! ## Single, halfword and swap transfers -/

/-- The address of a single data transfer (R310, R315, R316, R317): the base plus or minus the offset by U, used before
or after it is formed; what is written back and whether. Then LDR, LDRB and their T forms into a register other than
R15, in every addressing form (R311, R312, R318): the rotated word or the zero-extended byte, the base written back
first, one internal cycle. -/
def Obligations.LoadSingle : Prop :=
  (∀ (s : State) (u w : Bool) (rn : RegNum) (o : Offset),
    let base := s.readReg rn
    let off : Word := match o with
      | .imm off => BitVec.ofNat 32 off.toNat
      | .reg amt k rm => (shiftImm k (s.readReg rm) amt s.cpsr.c).res
    let moved := if u = true then base + off else base - off
    s.sdtAddress (.pre w) u rn o = { addr := moved, offaddr := moved, wb := w } ∧
    s.sdtAddress .post u rn o = { addr := base, offaddr := moved, wb := true } ∧
    s.sdtAddress .user u rn o = { addr := base, offaddr := moved, wb := true }) ∧
  ∀ (byte : Bool) (c : Cond) (ix : Indexing) (u : Bool) (rn rd : RegNum) (o : Offset) (s : State),
    let a := s.sdtAddress ix u rn o
    c.passes s.cpsr = true → rd ≠ 15 → (a.wb = true → rn ≠ 15) → 15 ∉ o.regs →
    s.Lenient (a.wb = true → rd ≠ rn) →
    let w : Width := if byte = true then .byte else .word
    let data := if byte = true then s.memRead a.addr .byte
      else (s.memRead (alignTo .word a.addr) .word).rotateRight (8 * (a.addr.toNat % 4))
    s.Computes (exec (o.loadInstr byte c ix u rn rd) s) (State.written rn a (some (rd, data))) s.cpsr
      (s.params.cost (alignTo w a.addr) w .data .nonSeq + 1) 0

/-- LDR and LDRT into R15: the base written back, then a branch to the loaded value (R311). -/
def Obligations.LoadPc : Prop :=
  ∀ (c : Cond) (ix : Indexing) (u : Bool) (rn : RegNum) (o : Offset) (s : State),
    let a := s.sdtAddress ix u rn o
    let data := (s.memRead (alignTo .word a.addr) .word).rotateRight (8 * (a.addr.toNat % 4))
    c.passes s.cpsr = true → (a.wb = true → rn ≠ 15) → 15 ∉ o.regs →
    s.Lenient (s.cpsr.t = false → misaligned4 data = false) →
    s.Branches (exec (o.loadInstr false c ix u rn 15) s) data (State.written rn a none) s.cpsr
      (s.params.cost (alignTo .word a.addr) .word .data .nonSeq + 1) 0

/-- STR, STRB and their T forms, in every addressing form (R313 to R318): the word at the aligned address or the low
byte, R15 stored as A + STORE_PC_OFFSET, the base written back after the store, a non-sequential fetch. -/
def Obligations.StoreSingle : Prop :=
  ∀ (byte : Bool) (c : Cond) (ix : Indexing) (u : Bool) (rn rd : RegNum) (o : Offset) (s : State),
    let a := s.sdtAddress ix u rn o
    let w : Width := if byte = true then .byte else .word
    c.passes s.cpsr = true → (a.wb = true → rn ≠ 15) → 15 ∉ o.regs →
    s.Lenient ((a.wb = true → rd ≠ rn) ∧ (byte = true → rd ≠ 15) ∧ (byte = false → misaligned4 a.addr = false) ∧
      s.hitsPrefetch (alignTo w a.addr) w = false) →
    s.Stores (exec (o.storeInstr byte c ix u rn rd) s) (alignTo w a.addr) w
      (if rd = 15 then s.instrAddr + s.params.storePcOffset else s.readReg rd) (State.written rn a none)

/-- The address of a halfword transfer (R319): a register, or eight bits in two halves, added or subtracted by U, before
or after the access. Then LDRH, LDRSB and LDRSH in both offset forms (R320, R322 to R324): the value zero- or
sign-extended; at an odd address, under `implement`, the rotated halfword or the signed byte. -/
def Obligations.LoadHalfword : Prop :=
  (∀ (s : State) (p u w : Bool) (rn : RegNum) (o : HwOffset),
    let base := s.readReg rn
    let off : Word := match o with
      | .reg rm => s.readReg rm
      | .imm hi lo => BitVec.ofNat 32 (16 * hi.toNat + lo.toNat)
    let moved := if u = true then base + off else base - off
    s.hwAddress p u w rn o = { addr := if p = true then moved else base, offaddr := moved, wb := !p || w }) ∧
  ∀ (h : HalfLoad) (c : Cond) (p u w : Bool) (rn rd sbz : RegNum) (o : HwOffset) (s : State),
    let a := s.hwAddress p u w rn o
    let odd := a.addr.getLsbD 0
    c.passes s.cpsr = true → rd ≠ 15 → (p = true ∨ w = false) → (a.wb = true → rn ≠ 15) → 15 ∉ o.regs →
    s.Lenient ((∀ rm, o = .reg rm → sbz = 0) ∧ (a.wb = true → rd ≠ rn) ∧ (h ≠ .signedByte → odd = false)) →
    let wd : Width := match h with
      | .unsignedHalf => .half
      | .signedByte => .byte
      | .signedHalf => if odd = true then .byte else .half
    let data : Word := match h with
      | .unsignedHalf =>
        if odd = true then (s.memRead (alignTo .half a.addr) .half).rotateRight 8 else s.memRead a.addr .half
      | .signedByte => ((s.memRead a.addr .byte).extractLsb' 0 8).signExtend 32
      | .signedHalf =>
        if odd = true then ((s.memRead a.addr .byte).extractLsb' 0 8).signExtend 32
        else ((s.memRead a.addr .half).extractLsb' 0 16).signExtend 32
    s.Computes (exec (o.loadInstr h c p u w rn rd sbz) s) (State.written rn a (some (rd, data))) s.cpsr
      (s.params.cost (alignTo wd a.addr) wd .data .nonSeq + 1) 0

/-- STRH in both offset forms (R319, R321, R324): the low half of Rd at the address with bit 0 cleared. -/
def Obligations.StoreHalfword : Prop :=
  ∀ (c : Cond) (p u w : Bool) (rn rd sbz : RegNum) (o : HwOffset) (s : State),
    let a := s.hwAddress p u w rn o
    c.passes s.cpsr = true → (p = true ∨ w = false) → (a.wb = true → rn ≠ 15) → 15 ∉ o.regs →
    s.Lenient ((∀ rm, o = .reg rm → sbz = 0) ∧ (a.wb = true → rd ≠ rn) ∧ rd ≠ 15 ∧ a.addr.getLsbD 0 = false ∧
      s.hitsPrefetch (alignTo .half a.addr) .half = false) →
    s.Stores (exec (o.storeInstr c p u w rn rd sbz) s) (alignTo .half a.addr) .half
      (if rd = 15 then s.instrAddr + s.params.storePcOffset else s.readReg rd) (State.written rn a none)

/-- SWP and SWPB (R325 to R327): Rd receives the old memory value (a word rotated as by LDR), memory the old Rm; two
data accesses, one internal cycle, a sequential fetch. -/
def Obligations.SwapExchanges : Prop :=
  ∀ (byte : Bool) (c : Cond) (rn rd sbz rm : RegNum) (s : State),
    let w : Width := if byte = true then .byte else .word
    let ea := alignTo w (s.readReg rn)
    c.passes s.cpsr = true → rn ≠ 15 → rd ≠ 15 → rm ≠ 15 →
    s.Lenient (sbz = 0 ∧ rn ≠ rd ∧ rn ≠ rm ∧ (byte = false → misaligned4 (s.readReg rn) = false) ∧
      s.hitsPrefetch ea w = false) →
    ∃ t, exec (if byte = true then .swpb c rn rd sbz rm else .swp c rn rd sbz rm) s = .next t ∧
      t.readReg rd = (if byte = true then s.memRead (s.readReg rn) .byte
        else (s.memRead ea .word).rotateRight (8 * ((s.readReg rn).toNat % 4))) ∧
      s.Wrote t ea w (s.readReg rm) ∧ t.cpsr = s.cpsr ∧
      s.Frame t [rd] ∧ s.Advanced t .seq (2 * s.params.cost ea w .data .nonSeq + 1) ∧ t.draws = s.draws

/-! ## ARM block transfers -/

/-- Addressing mode 4 (R350): the first address and the new base of each mode, 4 bytes a register; the registers of the
list in ascending order; an empty list moves R15 alone and the base by 0x40. Then STM in every addressing mode, of the
current registers and of the User registers (R351, R353, R357, R358): the k-th register of the list at the k-th address;
with write-back a base that is first stores its original value and a later one the updated value; R15 stores
A + STORE_PC_OFFSET. -/
def Obligations.StoreMultiple : Prop :=
  (∀ (b span : Word) (rl : BitVec 16),
    BlockMode.ia.start b span = b ∧ BlockMode.ib.start b span = b + 4 ∧ BlockMode.da.start b span = b - span + 4 ∧
    BlockMode.db.start b span = b - span ∧ BlockMode.ia.newBase b span = b + span ∧
    BlockMode.ib.newBase b span = b + span ∧ BlockMode.da.newBase b span = b - span ∧
    BlockMode.db.newBase b span = b - span ∧
    blockSpan rl = (if rl = 0 then 0x40 else BitVec.ofNat 32 (4 * (listRegs rl).length)) ∧
    blockRegs rl = (if rl = 0 then [15] else listRegs rl) ∧
    (∀ r, r ∈ listRegs rl ↔ rl.getLsbD r.toNat = true) ∧
    (listRegs rl).Pairwise (fun r r' => r.toNat < r'.toNat)) ∧
  ∀ (c : Cond) (m : BlockMode) (w : Bool) (rn : RegNum) (rl : BitVec 16) (s : State),
    let start := m.start (s.readReg rn) (blockSpan rl)
    let newBase := m.newBase (s.readReg rn) (blockSpan rl)
    let rs := blockRegs rl
    let pcWord := s.instrAddr + s.params.storePcOffset
    let quiet := misaligned4 (s.readReg rn) = false ∧ rl ≠ 0 ∧
      ∀ k, k < rs.length → s.hitsPrefetch (blockAddr start k) .word = false
    c.passes s.cpsr = true → rn ≠ 15 →
    (s.Lenient quiet →
      ∃ t, exec (m.stm c w rn rl) s = .next t ∧
        s.BlockStored t start rs (fun k r => if r = 15 then pcWord
          else if w = true ∧ r = rn ∧ k ≠ 0 then newBase else s.readReg r) ∧
        s.BaseWritten t w rn [] newBase ∧ t.cpsr = s.cpsr ∧ s.Frame t (if w = true then [rn] else []) ∧
        s.Advanced t .nonSeq (s.blockCost start .nonSeq rs.length) ∧ t.draws = s.draws) ∧
    (s.Lenient (quiet ∧ s.hasSpsr = true) →
      ∃ t, exec (m.stmUser c false rn rl) s = .next t ∧
        s.BlockStored t start rs (fun _ r => if r = 15 then pcWord else s.readUser r) ∧
        t.cpsr = s.cpsr ∧ s.Frame t [] ∧
        s.Advanced t .nonSeq (s.blockCost start .nonSeq rs.length) ∧ t.draws = s.draws)

/-- LDM in every addressing mode (R350, R352, R357): the k-th register of the list from the k-th address, the base
written back unless it was loaded; with R15 in the list a branch to its word. -/
def Obligations.LoadMultiple : Prop :=
  ∀ (c : Cond) (m : BlockMode) (w : Bool) (rn : RegNum) (rl : BitVec 16) (s : State),
    let start := m.start (s.readReg rn) (blockSpan rl)
    let newBase := m.newBase (s.readReg rn) (blockSpan rl)
    let rs := blockRegs rl
    let pcWord := s.memRead (blockAddr start (rs.length - 1)) .word
    c.passes s.cpsr = true → rn ≠ 15 →
    s.Lenient (misaligned4 (s.readReg rn) = false ∧ rl ≠ 0 ∧ (w = true → rn ∉ rs) ∧
      (15 ∈ rs → s.cpsr.t = false → misaligned4 pcWord = false)) →
    ∃ t, exec (m.ldm c w rn rl) s = .next t ∧ s.BlockLoaded t s.bank start rs ∧
      s.BaseWritten t w rn rs newBase ∧ t.cpsr = s.cpsr ∧ s.Frame t (if w = true then rn :: rs else rs) ∧
      s.MemKept t ∧ t.draws = s.draws ∧
      (15 ∉ rs → s.Advanced t .seq (s.blockCost start .nonSeq rs.length + 1)) ∧
      (15 ∈ rs → s.Branched t pcWord (s.blockCost start .nonSeq rs.length + 1))

/-- LDM of the User registers (R354): the User-mode registers are loaded, the current mode's own are untouched, and the
next instruction is a follow-on of LDM(2). An empty list under `implement` loads R15 alone and restores nothing: a
branch to the word (R350; for this form the model's reading, log 18). -/
def Obligations.LoadMultipleUser : Prop :=
  ∀ (c : Cond) (m : BlockMode) (rn : RegNum) (rl : BitVec 15) (s : State),
    let rs := listRegs (rl.setWidth 16)
    let start := m.start (s.readReg rn) (blockSpan (rl.setWidth 16))
    c.passes s.cpsr = true → rn ≠ 15 →
    (rl ≠ 0 → s.Lenient (misaligned4 (s.readReg rn) = false ∧ s.hasSpsr = true) →
      ∃ t, exec (m.ldmUser c false rn rl) s = .next t ∧ s.BlockLoaded t .usr start rs ∧
        (∀ p : PhysReg, (∀ r ∈ rs, Bank.usr.reg r ≠ some p) → t.regs.get p = s.regs.get p) ∧
        t.userBankHazard = true ∧ t.cpsr = s.cpsr ∧ t.spsrs = s.spsrs ∧ s.MemKept t ∧ t.draws = s.draws ∧
        s.Advanced t .seq (s.blockCost start .nonSeq rs.length + 1)) ∧
    (rl = 0 → s.params.unpred = .implement →
      s.Branches (exec (m.ldmUser c false rn rl) s) (s.memRead (blockAddr start 0) .word) [] s.cpsr
        (s.blockCost start .nonSeq 1 + 1) 0)

/-- LDM with R15 and S = 1 in an exception mode (R355): the registers of the current mode, then CPSR becomes the SPSR,
then a branch to the last word in the restored state. -/
def Obligations.LoadMultipleReturn : Prop :=
  ∀ (c : Cond) (m : BlockMode) (w : Bool) (rn : RegNum) (rl : BitVec 15) (s : State),
    let rs := listRegs (1#1 ++ rl)
    let span := blockSpan (1#1 ++ rl)
    let start := m.start (s.readReg rn) span
    let pcWord := s.memRead (blockAddr start (rs.length - 1)) .word
    let saved := s.spsrs.get s.bank
    c.passes s.cpsr = true → rn ≠ 15 → s.hasSpsr = true → saved.mode ≠ none →
    s.Lenient (misaligned4 (s.readReg rn) = false ∧ (w = true → rn ∉ rs) ∧
      (saved.t = false → misaligned4 pcWord = false)) →
    ∃ t, exec (m.ldmRet c w rn rl) s = .next t ∧ s.BlockLoaded t s.bank start rs ∧
      s.BaseWritten t w rn rs (m.newBase (s.readReg rn) span) ∧ t.cpsr = saved ∧
      s.Frame t (if w = true then rn :: rs else rs) ∧ s.MemKept t ∧ t.draws = s.draws ∧
      s.Branched t pcWord (s.blockCost start .nonSeq rs.length + 1)

/-! ## Branches and exceptions -/

/-- B and BL (R390, R391): a branch to x[15] plus the sign-extended offset; BL leaves A + 4 in R14. -/
def Obligations.BranchAndLink : Prop :=
  ∀ (c : Cond) (off : BitVec 24) (s : State), c.passes s.cpsr = true →
    let target := s.pc + BitVec.ofInt 32 (4 * off.toInt)
    s.Branches (exec (.b c off) s) target [] s.cpsr 0 0 ∧
    (s.Lenient True → s.Branches (exec (.bl c off) s) target [(14, s.instrAddr + 4)] s.cpsr 0 0)

/-- BX in both instruction sets (R392, R503): T becomes bit 0 of the register, then a branch in that state. -/
def Obligations.BranchExchange : Prop :=
  (∀ (c : Cond) (sbo : BitVec 12) (rm : RegNum) (s : State), c.passes s.cpsr = true →
    let t := s.readReg rm
    s.Lenient (sbo = 0xFFF ∧ (t.getLsbD 0 = true ∨ t.getLsbD 1 = false)) →
    s.Branches (exec (.bx c sbo rm) s) t [] { s.cpsr with t := t.getLsbD 0 } 0 0) ∧
  (∀ (h2 : Bool) (rs : LowReg) (sbz : BitVec 3) (s : State),
    let t := s.readReg (BitVec.ofBool h2 ++ rs)
    s.Lenient (sbz = 0 ∧ (t.getLsbD 0 = true ∨ t.getLsbD 1 = false)) →
    s.Branches (exec (.tBx h2 rs sbz) s) t [] { s.cpsr with t := t.getLsbD 0 } 0 0)

/-- SWI of both instruction sets without a hook (R393, R501, R524, R530): Supervisor mode, R14_svc the address of the
next instruction, SPSR_svc the old CPSR, I set, T clear, execution at the vector. -/
def Obligations.SoftwareInterrupt : Prop :=
  ∀ (i : Instr) (s : State), i.isSwi = true → (∀ c, i.cond? = some c → c.passes s.cpsr = true) →
    s.hook = none → s.Lenient True →
    ∃ t, exec i s = .next t ∧ s.Entered t .swi (s.instrAddr + (if s.cpsr.t = true then 2 else 4)) s.cpsr ∧
      t.cpsr = { s.cpsr with m := 0x13, t := false, i := true } ∧
      s.Branched t (s.params.exceptionBase + 8) 0 ∧ t.draws = s.draws ∧ t.totalCycles = s.totalCycles

/-- An undefined encoding of either instruction set, and a coprocessor instruction under `COPROC_POLICY = undefined`,
without a hook (R394, R400, R506, R530): one internal cycle, then the Undefined exception. -/
def Obligations.UndefinedTrap : Prop :=
  ∀ (i : Instr) (s : State),
    (i.isUndefined = true ∨ (i.isCoprocessor = true ∧ s.params.coproc = .undefined)) →
    (∀ c, i.cond? = some c → c.passes s.cpsr = true) → s.hook = none → s.Lenient True →
    ∃ t, exec i s = .next t ∧ s.Entered t .undefined (s.instrAddr + (if s.cpsr.t = true then 2 else 4)) s.cpsr ∧
      t.cpsr = { s.cpsr with m := 0x1B, t := false, i := true } ∧
      s.Branched t (s.params.exceptionBase + 4) 1 ∧ t.draws = s.draws ∧ t.totalCycles = s.totalCycles

/-- With a hook installed a SWI, an undefined encoding and a coprocessor instruction that traps ask it first, with the
would-be return address, the trap after its internal cycle: consumed, the instruction completes without branching from
the state the hook left, also right after LDM(2) (the model's reading, log 12); else the entry starts from that state
(R393, R394, R400, R533, R535). What a hook does is a free value (log 9). -/
def Obligations.HookAnswers : Prop :=
  ∀ (i : Instr) (s : State) (id : Nat), (∀ c, i.cond? = some c → c.passes s.cpsr = true) → s.hook = some id →
    let lr := s.instrAddr + (if s.cpsr.t = true then 2 else 4)
    let asks := fun (k : ExceptionKind) (before : State) =>
      let h := Config.hookResult id k lr before
      h.consumed = true ∨ s.Lenient True → exec i s = .next (if h.consumed = true
        then (before.afterHook h).fetchNext .seq else (before.afterHook h).enterException k lr)
    (i.isSwi = true → asks .swi s) ∧
    (i.isUndefined = true ∨ (i.isCoprocessor = true ∧ s.params.coproc = .undefined) →
      asks .undefined { s with cycles := s.cycles + 1 })

/-- A host-raised exception (R525, R531, R532, R534): masked, it changes nothing and answers false; else, without a
hook, the entry as the row of its kind in R521 says, with the return address of its kind, both latches filled at the
vector, the refill's cost added to the total alone. For Reset R14 and SPSR are free values (V2); which two of them is
the model's choice (log 8, log 24). -/
def Obligations.HostException : Prop :=
  ∀ (k : ExceptionKind) (s : State),
    ((s.faultRecord ≠ none ∨ (k = .irq ∧ s.cpsr.i = true) ∨ (k = .fiq ∧ s.cpsr.f = true)) →
      s.handleException k = (false, s)) ∧
    (s.faultRecord = none → ¬ (k = .irq ∧ s.cpsr.i = true) → ¬ (k = .fiq ∧ s.cpsr.f = true) → s.hook = none →
      let nx := s.instrAddr
      let lr := match k with
        | .reset => Config.freeValue s.draws
        | .undefined => nx
        | .swi => nx
        | .dataAbort => nx - s.opSize + 8
        | .addressExceeds26Bit => nx - s.opSize + 8
        | _ => nx + 4
      let saved := if k = .reset then Psr.ofWord (Config.freeValue (s.draws + 1)) else s.cpsr
      let row : BitVec 5 × Bool × Word := match k with
        | .reset => (0x13, true, 0x00)
        | .undefined => (0x1B, false, 0x04)
        | .swi => (0x13, false, 0x08)
        | .prefetchAbort => (0x17, false, 0x0C)
        | .dataAbort => (0x17, false, 0x10)
        | .addressExceeds26Bit => (0x13, false, 0x14)
        | .irq => (0x12, false, 0x18)
        | .fiq => (0x11, true, 0x1C)
      ∃ t, s.handleException k = (true, t) ∧
        s.Entered t k lr saved ∧ t.readReg 14 = lr ∧ t.spsrs.get t.bank = saved ∧
        t.cpsr = { s.cpsr with m := row.1, t := false, i := true, f := row.2.1 || s.cpsr.f } ∧
        t.instrAddr = alignTo .word (s.params.exceptionBase + row.2.2) ∧
        t.decoded = t.portRead .code t.instrAddr .word ∧
        t.fetched = t.portRead .code (t.instrAddr + 4) .word ∧ t.cycles = s.cycles ∧
        t.totalCycles = s.totalCycles + s.params.cost t.instrAddr .word .code .nonSeq +
          s.params.cost (t.instrAddr + 4) .word .code .seq)

/-! ## Stops -/

/-- The instructions the spec gives no effect: the reserved halfword encodings (R329), THUMB BX with H1 = 1 (R503), and
the coprocessor instructions under `COPROC_POLICY = diagnostic` (R400). -/
def Obligations.SpecStops : Prop :=
  (∀ (c : Cond) (p u w : Bool) (rn rd hi lo : BitVec 4) (s : State), c.passes s.cpsr = true →
    exec (.reservedLsh10Reg c p u w rn rd hi lo) s = .fault (.unpredictable .u22 s.instrAddr) ∧
    exec (.reservedLsh10Imm c p u w rn rd hi lo) s = .fault (.unpredictable .u22 s.instrAddr) ∧
    exec (.reservedLsh11Reg c p u w rn rd hi lo) s = .fault (.unpredictable .u22 s.instrAddr) ∧
    exec (.reservedLsh11Imm c p u w rn rd hi lo) s = .fault (.unpredictable .u22 s.instrAddr)) ∧
  (∀ (h2 : Bool) (rs : LowReg) (sbz : BitVec 3) (s : State),
    exec (.tBxH1 h2 rs sbz) s = .fault (.unpredictable .u21 s.instrAddr)) ∧
  (∀ (i : Instr) (s : State), i.isCoprocessor = true → (∀ c, i.cond? = some c → c.passes s.cpsr = true) →
    s.params.coproc = .diagnostic → exec i s = .fault (.coprocessorUnimplemented s.instrAddr))

/-- The register choices that stop under both policies (R260, R280, R281, R318, R319, R324, R327, R353, R354, R359,
R377, R477 to R480), each as an UNPREDICTABLE fault. That op[15:12] = 15 in MUL is no such choice is the model's
reading (log 25). -/
def Obligations.RegisterStops : Prop :=
  ∀ (c : Cond) (s : State), c.passes s.cpsr = true →
    let stops := fun i : Instr => ∃ u, exec i s = .fault (.unpredictable u s.instrAddr)
    (∀ (op : DpOp) (sf : Bool) (rn rd rm : RegNum) (k : ShiftKind), stops (op.instrRegShift c sf rn rd 15 k rm)) ∧
    (∀ (r : Bool) (x y z : BitVec 4), stops (.mrs c r x 15 y z) ∧ stops (.msrReg c r x y z 15)) ∧
    (∀ (sf : Bool) (rd rn rs rm : RegNum), 15 ∈ [rd, rs, rm] →
      stops (.mul c sf rd rn rs rm) ∧ stops (.mla c sf rd rn rs rm)) ∧
    (∀ (sf : Bool) (rd rs rm : RegNum), stops (.mla c sf rd 15 rs rm)) ∧
    (∀ (sg ac sf : Bool) (rh rl rs rm : RegNum), rh = rl ∨ 15 ∈ [rh, rl, rs, rm] →
      stops (longMulInstr sg ac c sf rh rl rs rm)) ∧
    (∀ (b : Bool) (ix : Indexing) (u : Bool) (rn rd : RegNum) (o : Offset),
      (15 ∈ o.regs ∨ (rn = 15 ∧ ix ≠ .pre false)) →
      stops (o.loadInstr b c ix u rn rd) ∧ stops (o.storeInstr b c ix u rn rd)) ∧
    (∀ (ix : Indexing) (u : Bool) (rn : RegNum) (o : Offset), stops (o.loadInstr true c ix u rn 15)) ∧
    (∀ (h : HalfLoad) (p u w : Bool) (rn rd sbz : RegNum) (o : HwOffset),
      ((p = false ∧ w = true) ∨ 15 ∈ o.regs ∨ (rn = 15 ∧ (p = false ∨ w = true))) →
      stops (o.loadInstr h c p u w rn rd sbz) ∧ stops (o.storeInstr c p u w rn rd sbz)) ∧
    (∀ (h : HalfLoad) (p u w : Bool) (rn sbz : RegNum) (o : HwOffset), stops (o.loadInstr h c p u w rn 15 sbz)) ∧
    (∀ (rn rd sbz rm : RegNum), 15 ∈ [rn, rd, rm] → stops (.swp c rn rd sbz rm) ∧ stops (.swpb c rn rd sbz rm)) ∧
    (∀ (m : BlockMode) (w : Bool) (rl : BitVec 16) (rl' : BitVec 15),
      stops (m.stm c w 15 rl) ∧ stops (m.ldm c w 15 rl) ∧ stops (m.stmUser c w 15 rl) ∧
      stops (m.ldmUser c w 15 rl') ∧ stops (m.ldmRet c w 15 rl')) ∧
    (∀ (m : BlockMode) (rn : RegNum) (rl : BitVec 16) (rl' : BitVec 15),
      stops (m.stmUser c true rn rl) ∧ stops (m.ldmUser c true rn rl')) ∧
    stops (.tPush false 0) ∧ stops (.tPop false 0) ∧ (∀ rb, stops (.tStmia rb 0) ∧ stops (.tLdmia rb 0))

/-- Under `UNPRED_POLICY = fault` every case the policy decides stops the model with its own name, where no other case
holds (R13; U1 is in ConditionFailed). Each clause shuts the other cases out, so that none rests on the order in which
the model checks them (log 11). What is a store into the prefetch window (U26) and what an access of a banked register
(U27) are readings (log 13, log 12). -/
def Obligations.PolicyStops : Prop :=
  (∀ a : Word, misaligned4 a = true ↔ a.toNat % 4 ≠ 0) ∧
  (∀ (s : State) (a : Word) (w : Width), s.hitsPrefetch a w = true ↔
    ∃ i j : Nat, i < w.bytes ∧ j < 2 * s.opSize.toNat ∧
      a + BitVec.ofNat 32 i = s.instrAddr + s.opSize + BitVec.ofNat 32 j) ∧
  ∀ (c : Cond) (s : State), s.params.unpred = .fault → c.passes s.cpsr = true →
    let stops := fun (i : Instr) (u : UCase) => exec i s = .fault (.unpredictable u s.instrAddr)
    let word := fun a : Word => misaligned4 a = false ∧ s.hitsPrefetch a .word = false
    let quiet := fun (m : BlockMode) (rn : RegNum) (rl : BitVec 16) => ∀ k, k < (blockRegs rl).length →
      s.hitsPrefetch (blockAddr (m.start (s.readReg rn) (blockSpan rl)) k) .word = false
    (s.userBankHazard = false →
      -- U3: MSR to the SPSR in User and System mode
      (∀ (mask : BitVec 4) (rm : RegNum), s.hasSpsr = false → rm ≠ 15 → stops (.msrReg c true mask 15 0 rm) .u3) ∧
      -- U4: R15 as operand of a register-specified shift
      (∀ (op : DpOp) (sf : Bool) (rn rd rs : RegNum) (k : ShiftKind), rs ≠ 15 → rd ≠ 15 →
        (op.ignoresRn = true → rn = 0) → (op.isTest = true → rd = 0) →
        stops ((Operand2.regShift rs k 15).instr op c sf rn rd) .u4) ∧
      -- U5: a should-be-zero field that is not
      (∀ (sf : Bool) (rn sbz rot : BitVec 4) (imm : Byte), sbz ≠ 0 →
        stops ((Operand2.imm rot imm).instr .tst c sf rn sbz) .u5) ∧
      -- U6: MUL and MLA with Rd = Rm
      (∀ (sf : Bool) (rd rn rs : RegNum), 15 ∉ [rd, rn, rs] →
        stops (.mul c sf rd 0 rs rd) .u6 ∧ stops (.mla c sf rd rn rs rd) .u6) ∧
      -- U7: STRB of R15
      (∀ (u : Bool) (rn : RegNum) (off : BitVec 12),
        s.hitsPrefetch (s.sdtAddress (.pre false) u rn (.imm off)).addr .byte = false →
        stops (.strbImmPre c u false rn 15 off) .u7) ∧
      -- U8 and U9: write-back into the transferred register
      (∀ (u : Bool) (rn : RegNum) (off : BitVec 12), rn ≠ 15 →
        stops (.ldrImmPre c u true rn rn off) .u8 ∧
        (word (s.sdtAddress (.pre true) u rn (.imm off)).addr → stops (.strImmPre c u true rn rn off) .u9)) ∧
      -- U11: a halfword at an odd address
      (∀ (ro rb rd : LowReg), (s.readReg rb.toReg + s.readReg ro.toReg).getLsbD 0 = true →
        stops (.tLdrhReg ro rb rd) .u11 ∧
        (s.hitsPrefetch (alignTo .half (s.readReg rb.toReg + s.readReg ro.toReg)) .half = false →
          stops (.tStrhReg ro rb rd) .u11)) ∧
      -- U12 and U26: a word stored at a misaligned address, or into the two next opcodes
      (∀ (u : Bool) (rn rd : RegNum) (off : BitVec 12),
        let a := (s.sdtAddress (.pre false) u rn (.imm off)).addr
        let hits := s.hitsPrefetch (alignTo .word a) .word
        (misaligned4 a = true → hits = false → stops (.strImmPre c u false rn rd off) .u12) ∧
        (misaligned4 a = false → hits = true → stops (.strImmPre c u false rn rd off) .u26)) ∧
      -- U13: a misaligned block base or swap address
      (∀ (m : BlockMode) (w : Bool) (rn : RegNum) (rl : BitVec 16), rn ≠ 15 → misaligned4 (s.readReg rn) = true →
        rl ≠ 0 → (quiet m rn rl → stops (m.stm c w rn rl) .u13) ∧
          (15 ∉ listRegs rl → rn ∉ listRegs rl → stops (m.ldm c w rn rl) .u13)) ∧
      (∀ (rn rd rm : RegNum), 15 ∉ [rn, rd, rm] → rn ∉ [rd, rm] → misaligned4 (s.readReg rn) = true →
        s.hitsPrefetch (alignTo .word (s.readReg rn)) .word = false → stops (.swp c rn rd 0 rm) .u13) ∧
      -- U14: an empty list
      (∀ (m : BlockMode) (w : Bool) (rn : RegNum), rn ≠ 15 → misaligned4 (s.readReg rn) = false →
        (quiet m rn 0 → stops (m.stm c w rn 0) .u14) ∧
        (misaligned4 (s.memRead (blockAddr (m.start (s.readReg rn) 0x40) 0) .word) = false →
          stops (m.ldm c w rn 0) .u14)) ∧
      -- U15: the base in the list of a load with write-back
      (∀ (m : BlockMode) (rn : RegNum) (rl : BitVec 16), rn ≠ 15 → misaligned4 (s.readReg rn) = false →
        rn ∈ listRegs rl → 15 ∉ listRegs rl → stops (m.ldm c true rn rl) .u15) ∧
      -- U16: the User-bank forms in User and System mode
      (∀ (m : BlockMode) (rn : RegNum) (rl : BitVec 16) (rl' : BitVec 15), rn ≠ 15 → s.hasSpsr = false →
        misaligned4 (s.readReg rn) = false → rl ≠ 0 → rl' ≠ 0 →
        (quiet m rn rl → stops (m.stmUser c false rn rl) .u16) ∧ stops (m.ldmUser c false rn rl') .u16) ∧
      -- U19: BX to ARM state with bit 1 set
      (∀ rm : RegNum, (s.readReg rm).getLsbD 0 = false → (s.readReg rm).getLsbD 1 = true →
        stops (.bx c 0xFFF rm) .u19) ∧
      -- U20: a hi-register form of two low registers
      (∀ rs rd : LowReg, stops (.tAddHi false false rs rd) .u20 ∧ stops (.tCmpHi false false rs rd) .u20 ∧
        stops (.tMovHi false false rs rd) .u20) ∧
      -- U23: a swap whose base is one of its other registers
      (∀ (rn rd rm : RegNum), 15 ∉ [rn, rd, rm] → rn ∈ [rd, rm] →
        (word (s.readReg rn) → stops (.swp c rn rd 0 rm) .u23) ∧
        (s.hitsPrefetch (s.readReg rn) .byte = false → stops (.swpb c rn rd 0 rm) .u23)) ∧
      -- U25: an ARM-state write of R15 that is not word-aligned
      (∀ (op : DpOp) (rn rot : BitVec 4) (imm : Byte), op.isTest = false → (op.ignoresRn = true → rn = 0) →
        s.cpsr.t = false →
        misaligned4 (dpResult op (s.readReg rn) ((Operand2.imm rot imm).value s).res s.cpsr.c) = true →
        stops ((Operand2.imm rot imm).instr op c false rn 15) .u25)) ∧
    -- U27: an access of a banked register right after LDM(2)
    (s.userBankHazard = true →
      (∀ rd : RegNum, rd ≠ 15 → s.bank.reg rd ≠ Bank.usr.reg rd → stops (.mrs c false 15 rd 0 0) .u27) ∧
      (∀ imm : BitVec 24, s.hook = none → stops (.swi c imm) .u27))

/-! ## THUMB data processing -/

/-- The THUMB shifts by an immediate and by a register (R411 to R413, R424 to R426, R429): N, Z and the shifter's C, V
kept; the register forms take one internal cycle. -/
def Obligations.ThumbShift : Prop :=
  ∀ (off : BitVec 5) (rs rd : LowReg) (s : State),
    let imm := fun k => shiftImm k (s.readReg rs.toReg) off s.cpsr.c
    let reg := fun k => shiftReg k (s.readReg rd.toReg) ((s.readReg rs.toReg).extractLsb' 0 8) s.cpsr.c
    let gives := fun (i : Instr) (o : ShiftOut) (k : Nat) =>
      s.Computes (exec i s) [(rd.toReg, o.res)] (s.cpsr.flagged o.res o.c s.cpsr.v) k 0
    gives (.tLslImm off rs rd) (imm .lsl) 0 ∧ gives (.tLsrImm off rs rd) (imm .lsr) 0 ∧
    gives (.tAsrImm off rs rd) (imm .asr) 0 ∧
    gives (.tLsl rs rd) (reg .lsl) 1 ∧ gives (.tLsr rs rd) (reg .lsr) 1 ∧ gives (.tAsr rs rd) (reg .asr) 1 ∧
    gives (.tRor rs rd) (reg .ror) 1

/-- The THUMB additions and subtractions (R414 to R417, R420, R421, R427, R428, R431): each is the data-processing
operation on its operands, with all four flags. -/
def Obligations.ThumbArithmetic : Prop :=
  ∀ (rn rs rd : LowReg) (off3 : BitVec 3) (off8 : Byte) (s : State),
    let gives := fun (i : Instr) (op : DpOp) (l r : Word) =>
      s.Computes (exec i s) [(rd.toReg, dpResult op l r s.cpsr.c)] (dpFlags s.params.adcV op l r false s.cpsr) 0 0
    let d := s.readReg rd.toReg
    let x := s.readReg rs.toReg
    gives (.tAddReg rn rs rd) .add x (s.readReg rn.toReg) ∧ gives (.tSubReg rn rs rd) .sub x (s.readReg rn.toReg) ∧
    gives (.tAddImm3 off3 rs rd) .add x (off3.setWidth 32) ∧ gives (.tSubImm3 off3 rs rd) .sub x (off3.setWidth 32) ∧
    gives (.tAddImm8 rd off8) .add d (off8.setWidth 32) ∧ gives (.tSubImm8 rd off8) .sub d (off8.setWidth 32) ∧
    gives (.tAdc rs rd) .adc d x ∧ gives (.tSbc rs rd) .sbc d x ∧ gives (.tNeg rs rd) .sub 0 x

/-- The other THUMB ALU operations: logical results with N and Z, C and V kept (R418, R422, R423, R434, R436, R437), the
comparisons (R419, R430, R432, R433), and MUL, whose C is a free value (R435). -/
def Obligations.ThumbLogic : Prop :=
  ∀ (rs rd : LowReg) (off8 : Byte) (s : State),
    let d := s.readReg rd.toReg
    let x := s.readReg rs.toReg
    let logic := fun (i : Instr) (res : Word) =>
      s.Computes (exec i s) [(rd.toReg, res)] (s.cpsr.flagged res s.cpsr.c s.cpsr.v) 0 0
    let compares := fun (i : Instr) (op : DpOp) (l r : Word) (c : Bool) =>
      s.Computes (exec i s) [] (dpFlags s.params.adcV op l r c s.cpsr) 0 0
    logic (.tMovImm8 rd off8) (off8.setWidth 32) ∧ logic (.tAnd rs rd) (d &&& x) ∧ logic (.tEor rs rd) (d ^^^ x) ∧
    logic (.tOrr rs rd) (d ||| x) ∧ logic (.tBic rs rd) (d &&& ~~~x) ∧ logic (.tMvn rs rd) (~~~x) ∧
    compares (.tCmpImm8 rd off8) .cmp d (off8.setWidth 32) false ∧ compares (.tCmp rs rd) .cmp d x false ∧
    compares (.tCmn rs rd) .cmn d x false ∧ compares (.tTst rs rd) .tst d x s.cpsr.c ∧
    s.Computes (exec (.tMul rs rd) s) [(rd.toReg, BitVec.ofNat 32 (x.toNat * d.toNat))]
      (s.cpsr.flagged (BitVec.ofNat 32 (x.toNat * d.toNat)) ((Config.freeValue s.draws).getLsbD 0) s.cpsr.v)
      (mulCycles d) 1

/-- The hi-register operations (R438 to R441): ADD and MOV set no flags and branch in the same state where the
destination is R15; CMP sets the flags alone. -/
def Obligations.ThumbHiRegister : Prop :=
  ∀ (h1 h2 : Bool) (rs rd : LowReg) (s : State), s.Lenient (h1 = true ∨ h2 = true) →
    let hd : RegNum := BitVec.ofBool h1 ++ rd
    let hs : RegNum := BitVec.ofBool h2 ++ rs
    let puts := fun (i : Instr) (res : Word) =>
      (hd ≠ 15 → s.Computes (exec i s) [(hd, res)] s.cpsr 0 0) ∧
      (hd = 15 → s.Branches (exec i s) res [] s.cpsr 0 0)
    puts (.tAddHi h1 h2 rs rd) (s.readReg hd + s.readReg hs) ∧ puts (.tMovHi h1 h2 rs rd) (s.readReg hs) ∧
    s.Computes (exec (.tCmpHi h1 h2 rs rd) s) []
      (dpFlags s.params.adcV .cmp (s.readReg hd) (s.readReg hs) false s.cpsr) 0 0

/-- Formats 12 and 13 (R443 to R447): an address from the PC with bit 1 cleared or from SP, and the moves of SP; no flag
changes. -/
def Obligations.ThumbAddress : Prop :=
  ∀ (rd : LowReg) (word8 : Byte) (word7 : BitVec 7) (s : State),
    let gives := fun (i : Instr) (r : RegNum) (v : Word) => s.Computes (exec i s) [(r, v)] s.cpsr 0 0
    let imm8 := BitVec.ofNat 32 (4 * word8.toNat)
    let imm7 := BitVec.ofNat 32 (4 * word7.toNat)
    gives (.tAddPc rd word8) rd.toReg (((s.instrAddr + 4) &&& ~~~2) + imm8) ∧
    (s.Lenient True → gives (.tAddSp rd word8) rd.toReg (s.readReg 13 + imm8) ∧
      gives (.tIncSp word7) 13 (s.readReg 13 + imm7) ∧ gives (.tDecSp word7) 13 (s.readReg 13 - imm7))

/-! ## THUMB loads, stores and block transfers -/

/-- The THUMB loads (R460, R463, R464, R466 to R468, R470, R472, R474, R476): the address, the value by width and
extension, one internal cycle. At an odd A, which only a host write leaves, the PC-relative load is aligned and rotated
as R87 and R88 say (the model's reading, log 26). -/
def Obligations.ThumbLoad : Prop :=
  ∀ (ro rb rd : LowReg) (off : BitVec 5) (word8 : Byte) (s : State),
    let gives := fun (i : Instr) (ea : Word) (w : Width) (v : Word) =>
      s.Computes (exec i s) [(rd.toReg, v)] s.cpsr (s.params.cost (alignTo w ea) w .data .nonSeq + 1) 0
    let word := fun ea : Word => (s.memRead (alignTo .word ea) .word).rotateRight (8 * (ea.toNat % 4))
    let byte := fun ea : Word => (s.memRead ea .byte).extractLsb' 0 8
    let half := fun ea : Word => (s.memRead ea .half).extractLsb' 0 16
    let oddHalf := fun ea : Word => (s.memRead (alignTo .half ea) .half).rotateRight 8
    let reg := s.readReg rb.toReg + s.readReg ro.toReg
    let imm := fun n : Nat => s.readReg rb.toReg + BitVec.ofNat 32 (n * off.toNat)
    let pcAddr := ((s.instrAddr + 4) &&& ~~~2) + BitVec.ofNat 32 (4 * word8.toNat)
    let spAddr := s.readReg 13 + BitVec.ofNat 32 (4 * word8.toNat)
    gives (.tLdrPc rd word8) pcAddr .word (word pcAddr) ∧
    (s.instrAddr.getLsbD 0 = false → word pcAddr = s.memRead pcAddr .word ∧ alignTo .word pcAddr = pcAddr) ∧
    gives (.tLdrReg ro rb rd) reg .word (word reg) ∧ gives (.tLdrImm off rb rd) (imm 4) .word (word (imm 4)) ∧
    (s.Lenient True → gives (.tLdrSp rd word8) spAddr .word (word spAddr)) ∧
    gives (.tLdrbReg ro rb rd) reg .byte ((byte reg).setWidth 32) ∧
    gives (.tLdrbImm off rb rd) (imm 1) .byte ((byte (imm 1)).setWidth 32) ∧
    gives (.tLdsbReg ro rb rd) reg .byte ((byte reg).signExtend 32) ∧
    (s.Lenient (reg.getLsbD 0 = false) →
      gives (.tLdrhReg ro rb rd) reg .half
        (if reg.getLsbD 0 = true then oddHalf reg else (half reg).setWidth 32) ∧
      gives (.tLdshReg ro rb rd) reg (if reg.getLsbD 0 = true then .byte else .half)
        (if reg.getLsbD 0 = true then (byte reg).signExtend 32 else (half reg).signExtend 32)) ∧
    (s.Lenient ((imm 2).getLsbD 0 = false) →
      gives (.tLdrhImm off rb rd) (imm 2) .half
        (if (imm 2).getLsbD 0 = true then oddHalf (imm 2) else (half (imm 2)).setWidth 32))

/-- The THUMB stores (R461, R462, R465, R469, R471, R473, R475): the low bytes of Rd at the aligned address, no register
written, a non-sequential fetch. -/
def Obligations.ThumbStore : Prop :=
  ∀ (ro rb rd : LowReg) (off : BitVec 5) (word8 : Byte) (s : State),
    let puts := fun (i : Instr) (ea : Word) (w : Width) =>
      s.Lenient (alignTo w ea = ea ∧ s.hitsPrefetch (alignTo w ea) w = false) →
      s.Stores (exec i s) (alignTo w ea) w (s.readReg rd.toReg) []
    let reg := s.readReg rb.toReg + s.readReg ro.toReg
    let imm := fun n : Nat => s.readReg rb.toReg + BitVec.ofNat 32 (n * off.toNat)
    puts (.tStrReg ro rb rd) reg .word ∧ puts (.tStrhReg ro rb rd) reg .half ∧ puts (.tStrbReg ro rb rd) reg .byte ∧
    puts (.tStrImm off rb rd) (imm 4) .word ∧ puts (.tStrhImm off rb rd) (imm 2) .half ∧
    puts (.tStrbImm off rb rd) (imm 1) .byte ∧
    puts (.tStrSp rd word8) (s.readReg 13 + BitVec.ofNat 32 (4 * word8.toNat)) .word

/-- PUSH and STMIA (R477, R479): PUSH stores the list and, with R = 1, R14 below the old SP; STMIA stores upwards from
Rb; a base that is not the lowest of the list stores its updated value; the base is written back. -/
def Obligations.ThumbBlockStore : Prop :=
  ∀ (s : State),
    let puts := fun (i : Instr) (m : BlockMode) (rb : RegNum) (rl : BitVec 16) =>
      let rs := listRegs rl
      let start := m.start (s.readReg rb) (BitVec.ofNat 32 (4 * rs.length))
      let newBase := m.newBase (s.readReg rb) (BitVec.ofNat 32 (4 * rs.length))
      rl ≠ 0 → s.Lenient (misaligned4 (s.readReg rb) = false ∧
        ∀ k, k < rs.length → s.hitsPrefetch (blockAddr start k) .word = false) →
      ∃ t, exec i s = .next t ∧
        s.BlockStored t start rs (fun k r => if r = rb ∧ k ≠ 0 then newBase else s.readReg r) ∧
        t.readReg rb = newBase ∧ t.cpsr = s.cpsr ∧ s.Frame t [rb] ∧
        s.Advanced t .nonSeq (s.blockCost start .nonSeq rs.length) ∧ t.draws = s.draws
    (∀ (r : Bool) (rl : Byte), puts (.tPush r rl) .db 13 (0#1 ++ BitVec.ofBool r ++ 0#6 ++ rl)) ∧
    (∀ (rb : LowReg) (rl : Byte), puts (.tStmia rb rl) .ia rb.toReg (rl.setWidth 16))

/-- POP and LDMIA (R478, R480): the list from the base upwards, the base written back unless it was loaded; POP with
R = 1 branches to the last word in THUMB state. -/
def Obligations.ThumbBlockLoad : Prop :=
  ∀ (s : State),
    let takes := fun (i : Instr) (rb : RegNum) (rl : BitVec 16) (pcToo : Bool) =>
      let rs := listRegs rl
      let start := s.readReg rb
      let pcWord := s.memRead (blockAddr start (rs.length - 1)) .word
      rl ≠ 0 → s.Lenient (misaligned4 start = false ∧ rb ∉ rs) →
      ∃ t, exec i s = .next t ∧ s.BlockLoaded t s.bank start rs ∧
        s.BaseWritten t true rb rs (start + BitVec.ofNat 32 (4 * rs.length)) ∧ t.cpsr = s.cpsr ∧
        s.Frame t (rb :: rs) ∧ s.MemKept t ∧ t.draws = s.draws ∧
        (pcToo = false → s.Advanced t .seq (s.blockCost start .nonSeq rs.length + 1)) ∧
        (pcToo = true → s.Branched t pcWord (s.blockCost start .nonSeq rs.length + 1))
    (∀ (r : Bool) (rl : Byte), takes (.tPop r rl) 13 (BitVec.ofBool r ++ 0#7 ++ rl) r) ∧
    (∀ (rb : LowReg) (rl : Byte), takes (.tLdmia rb rl) rb.toReg (rl.setWidth 16) false)

/-- The THUMB branches (R500, R502, R504, R505): B<cond> taken or not, B, and the two halves of BL. -/
def Obligations.ThumbBranches : Prop :=
  ∀ (s : State),
    (∀ (c : Cond) (off : Byte) (i : Instr), thumbBranchInstr c off = some i →
      (c.passes s.cpsr = true →
        s.Branches (exec i s) (s.instrAddr + 4 + BitVec.ofInt 32 (2 * off.toInt)) [] s.cpsr 0 0) ∧
      (c.passes s.cpsr = false → s.Computes (exec i s) [] s.cpsr 0 0)) ∧
    (∀ off : BitVec 11,
      s.Branches (exec (.tB off) s) (s.instrAddr + 4 + BitVec.ofInt 32 (2 * off.toInt)) [] s.cpsr 0 0 ∧
      (s.Lenient True →
        s.Computes (exec (.tBlHigh off) s) [(14, s.instrAddr + 4 + BitVec.ofInt 32 (2 ^ 12 * off.toInt))] s.cpsr 0 0 ∧
        s.Branches (exec (.tBlLow off) s) (s.readReg 14 + BitVec.ofNat 32 (2 * off.toNat))
          [(14, (s.instrAddr + 2) ||| 1)] s.cpsr 0 0))
end

