-- ==== Sys2Proof/Laws/State.lean ====
section
/-! SUPPORT. One lemma for each field and each update of the state, so that no proof unfolds an update. -/

namespace Sys2Proof.Machine

variable (s : State)

@[simp] theorem State.internal_regs (k : Nat) :
    (s.internal k).regs = s.regs := rfl

@[simp] theorem State.internal_pc (k : Nat) :
    (s.internal k).pc = s.pc := rfl

@[simp] theorem State.internal_cpsr (k : Nat) :
    (s.internal k).cpsr = s.cpsr := rfl

@[simp] theorem State.internal_spsrs (k : Nat) :
    (s.internal k).spsrs = s.spsrs := rfl

@[simp] theorem State.internal_decoded (k : Nat) :
    (s.internal k).decoded = s.decoded := rfl

@[simp] theorem State.internal_fetched (k : Nat) :
    (s.internal k).fetched = s.fetched := rfl

@[simp] theorem State.internal_cycles (k : Nat) :
    (s.internal k).cycles = s.cycles + k := rfl

@[simp] theorem State.internal_totalCycles (k : Nat) :
    (s.internal k).totalCycles = s.totalCycles := rfl

@[simp] theorem State.internal_hook (k : Nat) :
    (s.internal k).hook = s.hook := rfl

@[simp] theorem State.internal_faultRecord (k : Nat) :
    (s.internal k).faultRecord = s.faultRecord := rfl

@[simp] theorem State.internal_mem (k : Nat) :
    (s.internal k).mem = s.mem := rfl

@[simp] theorem State.internal_params (k : Nat) :
    (s.internal k).params = s.params := rfl

@[simp] theorem State.internal_userBankHazard (k : Nat) :
    (s.internal k).userBankHazard = s.userBankHazard := rfl

@[simp] theorem State.internal_draws (k : Nat) :
    (s.internal k).draws = s.draws := rfl

@[simp] theorem State.chargeData_regs (a : Word) (w : Width) (q : Seq) :
    (s.chargeData a w q).regs = s.regs := rfl

@[simp] theorem State.chargeData_pc (a : Word) (w : Width) (q : Seq) :
    (s.chargeData a w q).pc = s.pc := rfl

@[simp] theorem State.chargeData_cpsr (a : Word) (w : Width) (q : Seq) :
    (s.chargeData a w q).cpsr = s.cpsr := rfl

@[simp] theorem State.chargeData_spsrs (a : Word) (w : Width) (q : Seq) :
    (s.chargeData a w q).spsrs = s.spsrs := rfl

@[simp] theorem State.chargeData_decoded (a : Word) (w : Width) (q : Seq) :
    (s.chargeData a w q).decoded = s.decoded := rfl

@[simp] theorem State.chargeData_fetched (a : Word) (w : Width) (q : Seq) :
    (s.chargeData a w q).fetched = s.fetched := rfl

@[simp] theorem State.chargeData_cycles (a : Word) (w : Width) (q : Seq) :
    (s.chargeData a w q).cycles = s.cycles + s.params.cost a w .data q := rfl

@[simp] theorem State.chargeData_totalCycles (a : Word) (w : Width) (q : Seq) :
    (s.chargeData a w q).totalCycles = s.totalCycles := rfl

@[simp] theorem State.chargeData_hook (a : Word) (w : Width) (q : Seq) :
    (s.chargeData a w q).hook = s.hook := rfl

@[simp] theorem State.chargeData_faultRecord (a : Word) (w : Width) (q : Seq) :
    (s.chargeData a w q).faultRecord = s.faultRecord := rfl

@[simp] theorem State.chargeData_mem (a : Word) (w : Width) (q : Seq) :
    (s.chargeData a w q).mem = s.mem := rfl

@[simp] theorem State.chargeData_params (a : Word) (w : Width) (q : Seq) :
    (s.chargeData a w q).params = s.params := rfl

@[simp] theorem State.chargeData_userBankHazard (a : Word) (w : Width) (q : Seq) :
    (s.chargeData a w q).userBankHazard = s.userBankHazard := rfl

@[simp] theorem State.chargeData_draws (a : Word) (w : Width) (q : Seq) :
    (s.chargeData a w q).draws = s.draws := rfl

@[simp] theorem State.memWrite_regs (a : Word) (w : Width) (v : Word) (q : Seq) :
    (s.memWrite a w v q).regs = s.regs := rfl

@[simp] theorem State.memWrite_pc (a : Word) (w : Width) (v : Word) (q : Seq) :
    (s.memWrite a w v q).pc = s.pc := rfl

@[simp] theorem State.memWrite_cpsr (a : Word) (w : Width) (v : Word) (q : Seq) :
    (s.memWrite a w v q).cpsr = s.cpsr := rfl

@[simp] theorem State.memWrite_spsrs (a : Word) (w : Width) (v : Word) (q : Seq) :
    (s.memWrite a w v q).spsrs = s.spsrs := rfl

@[simp] theorem State.memWrite_decoded (a : Word) (w : Width) (v : Word) (q : Seq) :
    (s.memWrite a w v q).decoded = s.decoded := rfl

@[simp] theorem State.memWrite_fetched (a : Word) (w : Width) (v : Word) (q : Seq) :
    (s.memWrite a w v q).fetched = s.fetched := rfl

@[simp] theorem State.memWrite_cycles (a : Word) (w : Width) (v : Word) (q : Seq) :
    (s.memWrite a w v q).cycles = s.cycles + s.params.cost a w .data q := rfl

@[simp] theorem State.memWrite_totalCycles (a : Word) (w : Width) (v : Word) (q : Seq) :
    (s.memWrite a w v q).totalCycles = s.totalCycles := rfl

@[simp] theorem State.memWrite_hook (a : Word) (w : Width) (v : Word) (q : Seq) :
    (s.memWrite a w v q).hook = s.hook := rfl

@[simp] theorem State.memWrite_faultRecord (a : Word) (w : Width) (v : Word) (q : Seq) :
    (s.memWrite a w v q).faultRecord = s.faultRecord := rfl

@[simp] theorem State.memWrite_mem (a : Word) (w : Width) (v : Word) (q : Seq) :
    (s.memWrite a w v q).mem = s.portStore a w v := rfl

@[simp] theorem State.memWrite_params (a : Word) (w : Width) (v : Word) (q : Seq) :
    (s.memWrite a w v q).params = s.params := rfl

@[simp] theorem State.memWrite_userBankHazard (a : Word) (w : Width) (v : Word) (q : Seq) :
    (s.memWrite a w v q).userBankHazard = s.userBankHazard := rfl

@[simp] theorem State.memWrite_draws (a : Word) (w : Width) (v : Word) (q : Seq) :
    (s.memWrite a w v q).draws = s.draws := rfl

@[simp] theorem State.fetchNext_regs (q : Seq) :
    (s.fetchNext q).regs = s.regs := rfl

@[simp] theorem State.fetchNext_pc (q : Seq) :
    (s.fetchNext q).pc = s.pc + s.opSize := rfl

@[simp] theorem State.fetchNext_cpsr (q : Seq) :
    (s.fetchNext q).cpsr = s.cpsr := rfl

@[simp] theorem State.fetchNext_spsrs (q : Seq) :
    (s.fetchNext q).spsrs = s.spsrs := rfl

@[simp] theorem State.fetchNext_decoded (q : Seq) :
    (s.fetchNext q).decoded = s.decoded := rfl

@[simp] theorem State.fetchNext_fetched (q : Seq) :
    (s.fetchNext q).fetched = s.fetchAt s.pc := rfl

@[simp] theorem State.fetchNext_cycles (q : Seq) :
    (s.fetchNext q).cycles = s.cycles + s.params.cost (alignTo s.opWidth s.pc) s.opWidth .code q := rfl

@[simp] theorem State.fetchNext_totalCycles (q : Seq) :
    (s.fetchNext q).totalCycles = s.totalCycles := rfl

@[simp] theorem State.fetchNext_hook (q : Seq) :
    (s.fetchNext q).hook = s.hook := rfl

@[simp] theorem State.fetchNext_faultRecord (q : Seq) :
    (s.fetchNext q).faultRecord = s.faultRecord := rfl

@[simp] theorem State.fetchNext_mem (q : Seq) :
    (s.fetchNext q).mem = s.mem := rfl

@[simp] theorem State.fetchNext_params (q : Seq) :
    (s.fetchNext q).params = s.params := rfl

@[simp] theorem State.fetchNext_userBankHazard (q : Seq) :
    (s.fetchNext q).userBankHazard = false := rfl

@[simp] theorem State.fetchNext_draws (q : Seq) :
    (s.fetchNext q).draws = s.draws := rfl

@[simp] theorem State.refill_regs (x : Word) :
    (s.refill x).regs = s.regs := rfl

@[simp] theorem State.refill_pc (x : Word) :
    (s.refill x).pc = alignTo s.opWidth x + s.opSize + s.opSize := rfl

@[simp] theorem State.refill_cpsr (x : Word) :
    (s.refill x).cpsr = s.cpsr := rfl

@[simp] theorem State.refill_spsrs (x : Word) :
    (s.refill x).spsrs = s.spsrs := rfl

@[simp] theorem State.refill_decoded (x : Word) :
    (s.refill x).decoded = s.fetchAt (alignTo s.opWidth x) := rfl

@[simp] theorem State.refill_fetched (x : Word) :
    (s.refill x).fetched = s.fetchAt (alignTo s.opWidth x + s.opSize) := rfl

@[simp] theorem State.refill_cycles (x : Word) :
    (s.refill x).cycles = s.cycles := rfl

@[simp] theorem State.refill_totalCycles (x : Word) :
    (s.refill x).totalCycles = s.totalCycles := rfl

@[simp] theorem State.refill_hook (x : Word) :
    (s.refill x).hook = s.hook := rfl

@[simp] theorem State.refill_faultRecord (x : Word) :
    (s.refill x).faultRecord = s.faultRecord := rfl

@[simp] theorem State.refill_mem (x : Word) :
    (s.refill x).mem = s.mem := rfl

@[simp] theorem State.refill_params (x : Word) :
    (s.refill x).params = s.params := rfl

@[simp] theorem State.refill_userBankHazard (x : Word) :
    (s.refill x).userBankHazard = false := rfl

@[simp] theorem State.refill_draws (x : Word) :
    (s.refill x).draws = s.draws := rfl

@[simp] theorem State.branchTo_regs (x : Word) :
    (s.branchTo x).regs = s.regs := rfl

@[simp] theorem State.branchTo_pc (x : Word) :
    (s.branchTo x).pc = alignTo s.opWidth x + s.opSize + s.opSize := rfl

@[simp] theorem State.branchTo_cpsr (x : Word) :
    (s.branchTo x).cpsr = s.cpsr := rfl

@[simp] theorem State.branchTo_spsrs (x : Word) :
    (s.branchTo x).spsrs = s.spsrs := rfl

@[simp] theorem State.branchTo_decoded (x : Word) :
    (s.branchTo x).decoded = s.fetchAt (alignTo s.opWidth x) := rfl

@[simp] theorem State.branchTo_fetched (x : Word) :
    (s.branchTo x).fetched = s.fetchAt (alignTo s.opWidth x + s.opSize) := rfl

@[simp] theorem State.branchTo_cycles (x : Word) :
    (s.branchTo x).cycles = s.cycles + s.params.cost s.pc s.opWidth .code .seq + s.refillCost x := rfl

@[simp] theorem State.branchTo_totalCycles (x : Word) :
    (s.branchTo x).totalCycles = s.totalCycles := rfl

@[simp] theorem State.branchTo_hook (x : Word) :
    (s.branchTo x).hook = s.hook := rfl

@[simp] theorem State.branchTo_faultRecord (x : Word) :
    (s.branchTo x).faultRecord = s.faultRecord := rfl

@[simp] theorem State.branchTo_mem (x : Word) :
    (s.branchTo x).mem = s.mem := rfl

@[simp] theorem State.branchTo_params (x : Word) :
    (s.branchTo x).params = s.params := rfl

@[simp] theorem State.branchTo_userBankHazard (x : Word) :
    (s.branchTo x).userBankHazard = false := rfl

@[simp] theorem State.branchTo_draws (x : Word) :
    (s.branchTo x).draws = s.draws := rfl

@[simp] theorem State.afterDraws_regs (k : Nat) :
    (s.afterDraws k).regs = s.regs := rfl

@[simp] theorem State.afterDraws_pc (k : Nat) :
    (s.afterDraws k).pc = s.pc := rfl

@[simp] theorem State.afterDraws_cpsr (k : Nat) :
    (s.afterDraws k).cpsr = s.cpsr := rfl

@[simp] theorem State.afterDraws_spsrs (k : Nat) :
    (s.afterDraws k).spsrs = s.spsrs := rfl

@[simp] theorem State.afterDraws_decoded (k : Nat) :
    (s.afterDraws k).decoded = s.decoded := rfl

@[simp] theorem State.afterDraws_fetched (k : Nat) :
    (s.afterDraws k).fetched = s.fetched := rfl

@[simp] theorem State.afterDraws_cycles (k : Nat) :
    (s.afterDraws k).cycles = s.cycles := rfl

@[simp] theorem State.afterDraws_totalCycles (k : Nat) :
    (s.afterDraws k).totalCycles = s.totalCycles := rfl

@[simp] theorem State.afterDraws_hook (k : Nat) :
    (s.afterDraws k).hook = s.hook := rfl

@[simp] theorem State.afterDraws_faultRecord (k : Nat) :
    (s.afterDraws k).faultRecord = s.faultRecord := rfl

@[simp] theorem State.afterDraws_mem (k : Nat) :
    (s.afterDraws k).mem = s.mem := rfl

@[simp] theorem State.afterDraws_params (k : Nat) :
    (s.afterDraws k).params = s.params := rfl

@[simp] theorem State.afterDraws_userBankHazard (k : Nat) :
    (s.afterDraws k).userBankHazard = s.userBankHazard := rfl

@[simp] theorem State.afterDraws_draws (k : Nat) :
    (s.afterDraws k).draws = s.draws + k := rfl

@[simp] theorem State.setFlags_regs (o : AluOut) :
    (s.setFlags o).regs = s.regs := rfl

@[simp] theorem State.setFlags_pc (o : AluOut) :
    (s.setFlags o).pc = s.pc := rfl

@[simp] theorem State.setFlags_cpsr (o : AluOut) :
    (s.setFlags o).cpsr = s.cpsr.withFlags o.res o.c o.v := rfl

@[simp] theorem State.setFlags_spsrs (o : AluOut) :
    (s.setFlags o).spsrs = s.spsrs := rfl

@[simp] theorem State.setFlags_decoded (o : AluOut) :
    (s.setFlags o).decoded = s.decoded := rfl

@[simp] theorem State.setFlags_fetched (o : AluOut) :
    (s.setFlags o).fetched = s.fetched := rfl

@[simp] theorem State.setFlags_cycles (o : AluOut) :
    (s.setFlags o).cycles = s.cycles := rfl

@[simp] theorem State.setFlags_totalCycles (o : AluOut) :
    (s.setFlags o).totalCycles = s.totalCycles := rfl

@[simp] theorem State.setFlags_hook (o : AluOut) :
    (s.setFlags o).hook = s.hook := rfl

@[simp] theorem State.setFlags_faultRecord (o : AluOut) :
    (s.setFlags o).faultRecord = s.faultRecord := rfl

@[simp] theorem State.setFlags_mem (o : AluOut) :
    (s.setFlags o).mem = s.mem := rfl

@[simp] theorem State.setFlags_params (o : AluOut) :
    (s.setFlags o).params = s.params := rfl

@[simp] theorem State.setFlags_userBankHazard (o : AluOut) :
    (s.setFlags o).userBankHazard = s.userBankHazard := rfl

@[simp] theorem State.setFlags_draws (o : AluOut) :
    (s.setFlags o).draws = s.draws := rfl

@[simp] theorem State.setNZ_regs (x : Word) :
    (s.setNZ x).regs = s.regs := rfl

@[simp] theorem State.setNZ_pc (x : Word) :
    (s.setNZ x).pc = s.pc := rfl

@[simp] theorem State.setNZ_cpsr (x : Word) :
    (s.setNZ x).cpsr = s.cpsr.withFlags x s.cpsr.c s.cpsr.v := rfl

@[simp] theorem State.setNZ_spsrs (x : Word) :
    (s.setNZ x).spsrs = s.spsrs := rfl

@[simp] theorem State.setNZ_decoded (x : Word) :
    (s.setNZ x).decoded = s.decoded := rfl

@[simp] theorem State.setNZ_fetched (x : Word) :
    (s.setNZ x).fetched = s.fetched := rfl

@[simp] theorem State.setNZ_cycles (x : Word) :
    (s.setNZ x).cycles = s.cycles := rfl

@[simp] theorem State.setNZ_totalCycles (x : Word) :
    (s.setNZ x).totalCycles = s.totalCycles := rfl

@[simp] theorem State.setNZ_hook (x : Word) :
    (s.setNZ x).hook = s.hook := rfl

@[simp] theorem State.setNZ_faultRecord (x : Word) :
    (s.setNZ x).faultRecord = s.faultRecord := rfl

@[simp] theorem State.setNZ_mem (x : Word) :
    (s.setNZ x).mem = s.mem := rfl

@[simp] theorem State.setNZ_params (x : Word) :
    (s.setNZ x).params = s.params := rfl

@[simp] theorem State.setNZ_userBankHazard (x : Word) :
    (s.setNZ x).userBankHazard = s.userBankHazard := rfl

@[simp] theorem State.setNZ_draws (x : Word) :
    (s.setNZ x).draws = s.draws := rfl

@[simp] theorem State.setNZC_regs (x : Word) (c : Bool) :
    (s.setNZC x c).regs = s.regs := rfl

@[simp] theorem State.setNZC_pc (x : Word) (c : Bool) :
    (s.setNZC x c).pc = s.pc := rfl

@[simp] theorem State.setNZC_cpsr (x : Word) (c : Bool) :
    (s.setNZC x c).cpsr = s.cpsr.withFlags x c s.cpsr.v := rfl

@[simp] theorem State.setNZC_spsrs (x : Word) (c : Bool) :
    (s.setNZC x c).spsrs = s.spsrs := rfl

@[simp] theorem State.setNZC_decoded (x : Word) (c : Bool) :
    (s.setNZC x c).decoded = s.decoded := rfl

@[simp] theorem State.setNZC_fetched (x : Word) (c : Bool) :
    (s.setNZC x c).fetched = s.fetched := rfl

@[simp] theorem State.setNZC_cycles (x : Word) (c : Bool) :
    (s.setNZC x c).cycles = s.cycles := rfl

@[simp] theorem State.setNZC_totalCycles (x : Word) (c : Bool) :
    (s.setNZC x c).totalCycles = s.totalCycles := rfl

@[simp] theorem State.setNZC_hook (x : Word) (c : Bool) :
    (s.setNZC x c).hook = s.hook := rfl

@[simp] theorem State.setNZC_faultRecord (x : Word) (c : Bool) :
    (s.setNZC x c).faultRecord = s.faultRecord := rfl

@[simp] theorem State.setNZC_mem (x : Word) (c : Bool) :
    (s.setNZC x c).mem = s.mem := rfl

@[simp] theorem State.setNZC_params (x : Word) (c : Bool) :
    (s.setNZC x c).params = s.params := rfl

@[simp] theorem State.setNZC_userBankHazard (x : Word) (c : Bool) :
    (s.setNZC x c).userBankHazard = s.userBankHazard := rfl

@[simp] theorem State.setNZC_draws (x : Word) (c : Bool) :
    (s.setNZC x c).draws = s.draws := rfl

@[simp] theorem State.setMulFlags_regs (x : Word) :
    (s.setMulFlags x).regs = s.regs := rfl

@[simp] theorem State.setMulFlags_pc (x : Word) :
    (s.setMulFlags x).pc = s.pc := rfl

@[simp] theorem State.setMulFlags_cpsr (x : Word) :
    (s.setMulFlags x).cpsr = s.cpsr.withFlags x (s.drawn.getLsbD 0) s.cpsr.v := rfl

@[simp] theorem State.setMulFlags_spsrs (x : Word) :
    (s.setMulFlags x).spsrs = s.spsrs := rfl

@[simp] theorem State.setMulFlags_decoded (x : Word) :
    (s.setMulFlags x).decoded = s.decoded := rfl

@[simp] theorem State.setMulFlags_fetched (x : Word) :
    (s.setMulFlags x).fetched = s.fetched := rfl

@[simp] theorem State.setMulFlags_cycles (x : Word) :
    (s.setMulFlags x).cycles = s.cycles := rfl

@[simp] theorem State.setMulFlags_totalCycles (x : Word) :
    (s.setMulFlags x).totalCycles = s.totalCycles := rfl

@[simp] theorem State.setMulFlags_hook (x : Word) :
    (s.setMulFlags x).hook = s.hook := rfl

@[simp] theorem State.setMulFlags_faultRecord (x : Word) :
    (s.setMulFlags x).faultRecord = s.faultRecord := rfl

@[simp] theorem State.setMulFlags_mem (x : Word) :
    (s.setMulFlags x).mem = s.mem := rfl

@[simp] theorem State.setMulFlags_params (x : Word) :
    (s.setMulFlags x).params = s.params := rfl

@[simp] theorem State.setMulFlags_userBankHazard (x : Word) :
    (s.setMulFlags x).userBankHazard = s.userBankHazard := rfl

@[simp] theorem State.setMulFlags_draws (x : Word) :
    (s.setMulFlags x).draws = s.draws + 1 := rfl

@[simp] theorem State.setLongMulFlags_regs (x : BitVec 64) :
    (s.setLongMulFlags x).regs = s.regs := rfl

@[simp] theorem State.setLongMulFlags_pc (x : BitVec 64) :
    (s.setLongMulFlags x).pc = s.pc := rfl

@[simp] theorem State.setLongMulFlags_spsrs (x : BitVec 64) :
    (s.setLongMulFlags x).spsrs = s.spsrs := rfl

@[simp] theorem State.setLongMulFlags_decoded (x : BitVec 64) :
    (s.setLongMulFlags x).decoded = s.decoded := rfl

@[simp] theorem State.setLongMulFlags_fetched (x : BitVec 64) :
    (s.setLongMulFlags x).fetched = s.fetched := rfl

@[simp] theorem State.setLongMulFlags_cycles (x : BitVec 64) :
    (s.setLongMulFlags x).cycles = s.cycles := rfl

@[simp] theorem State.setLongMulFlags_totalCycles (x : BitVec 64) :
    (s.setLongMulFlags x).totalCycles = s.totalCycles := rfl

@[simp] theorem State.setLongMulFlags_hook (x : BitVec 64) :
    (s.setLongMulFlags x).hook = s.hook := rfl

@[simp] theorem State.setLongMulFlags_faultRecord (x : BitVec 64) :
    (s.setLongMulFlags x).faultRecord = s.faultRecord := rfl

@[simp] theorem State.setLongMulFlags_mem (x : BitVec 64) :
    (s.setLongMulFlags x).mem = s.mem := rfl

@[simp] theorem State.setLongMulFlags_params (x : BitVec 64) :
    (s.setLongMulFlags x).params = s.params := rfl

@[simp] theorem State.setLongMulFlags_userBankHazard (x : BitVec 64) :
    (s.setLongMulFlags x).userBankHazard = s.userBankHazard := rfl

@[simp] theorem State.setLongMulFlags_draws (x : BitVec 64) :
    (s.setLongMulFlags x).draws = s.draws + 2 := rfl

@[simp] theorem State.setT_regs (b : Bool) :
    (s.setT b).regs = s.regs := rfl

@[simp] theorem State.setT_pc (b : Bool) :
    (s.setT b).pc = s.pc := rfl

@[simp] theorem State.setT_cpsr (b : Bool) :
    (s.setT b).cpsr = { s.cpsr with t := b } := rfl

@[simp] theorem State.setT_spsrs (b : Bool) :
    (s.setT b).spsrs = s.spsrs := rfl

@[simp] theorem State.setT_decoded (b : Bool) :
    (s.setT b).decoded = s.decoded := rfl

@[simp] theorem State.setT_fetched (b : Bool) :
    (s.setT b).fetched = s.fetched := rfl

@[simp] theorem State.setT_cycles (b : Bool) :
    (s.setT b).cycles = s.cycles := rfl

@[simp] theorem State.setT_totalCycles (b : Bool) :
    (s.setT b).totalCycles = s.totalCycles := rfl

@[simp] theorem State.setT_hook (b : Bool) :
    (s.setT b).hook = s.hook := rfl

@[simp] theorem State.setT_faultRecord (b : Bool) :
    (s.setT b).faultRecord = s.faultRecord := rfl

@[simp] theorem State.setT_mem (b : Bool) :
    (s.setT b).mem = s.mem := rfl

@[simp] theorem State.setT_params (b : Bool) :
    (s.setT b).params = s.params := rfl

@[simp] theorem State.setT_userBankHazard (b : Bool) :
    (s.setT b).userBankHazard = s.userBankHazard := rfl

@[simp] theorem State.setT_draws (b : Bool) :
    (s.setT b).draws = s.draws := rfl

@[simp] theorem State.beginStep_regs : (s.beginStep).regs = s.regs := rfl

@[simp] theorem State.beginStep_pc : (s.beginStep).pc = s.pc := rfl

@[simp] theorem State.beginStep_cpsr : (s.beginStep).cpsr = s.cpsr := rfl

@[simp] theorem State.beginStep_spsrs : (s.beginStep).spsrs = s.spsrs := rfl

@[simp] theorem State.beginStep_decoded : (s.beginStep).decoded = s.fetched := rfl

@[simp] theorem State.beginStep_fetched : (s.beginStep).fetched = s.fetched := rfl

@[simp] theorem State.beginStep_cycles : (s.beginStep).cycles = 0 := rfl

@[simp] theorem State.beginStep_totalCycles : (s.beginStep).totalCycles = s.totalCycles := rfl

@[simp] theorem State.beginStep_hook : (s.beginStep).hook = s.hook := rfl

@[simp] theorem State.beginStep_faultRecord : (s.beginStep).faultRecord = s.faultRecord := rfl

@[simp] theorem State.beginStep_mem : (s.beginStep).mem = s.mem := rfl

@[simp] theorem State.beginStep_params : (s.beginStep).params = s.params := rfl

@[simp] theorem State.beginStep_userBankHazard : (s.beginStep).userBankHazard = s.userBankHazard := rfl

@[simp] theorem State.beginStep_draws : (s.beginStep).draws = s.draws + 1 := rfl

@[simp] theorem State.endStep_regs : (s.endStep).regs = s.regs := rfl

@[simp] theorem State.endStep_pc : (s.endStep).pc = s.pc := rfl

@[simp] theorem State.endStep_cpsr : (s.endStep).cpsr = s.cpsr := rfl

@[simp] theorem State.endStep_spsrs : (s.endStep).spsrs = s.spsrs := rfl

@[simp] theorem State.endStep_decoded : (s.endStep).decoded = s.decoded := rfl

@[simp] theorem State.endStep_fetched : (s.endStep).fetched = s.fetched := rfl

@[simp] theorem State.endStep_cycles : (s.endStep).cycles = s.cycles := rfl

@[simp] theorem State.endStep_totalCycles : (s.endStep).totalCycles = s.totalCycles + s.cycles := rfl

@[simp] theorem State.endStep_hook : (s.endStep).hook = s.hook := rfl

@[simp] theorem State.endStep_faultRecord : (s.endStep).faultRecord = s.faultRecord := rfl

@[simp] theorem State.endStep_mem : (s.endStep).mem = s.mem := rfl

@[simp] theorem State.endStep_params : (s.endStep).params = s.params := rfl

@[simp] theorem State.endStep_userBankHazard : (s.endStep).userBankHazard = s.userBankHazard := rfl

@[simp] theorem State.endStep_draws : (s.endStep).draws = s.draws := rfl

@[simp] theorem State.writeBank_pc (b : Bank) (r : RegNum) (v : Word) :
    (s.writeBank b r v).pc = s.pc := by
  unfold State.writeBank; split <;> rfl

@[simp] theorem State.writeBank_cpsr (b : Bank) (r : RegNum) (v : Word) :
    (s.writeBank b r v).cpsr = s.cpsr := by
  unfold State.writeBank; split <;> rfl

@[simp] theorem State.writeBank_spsrs (b : Bank) (r : RegNum) (v : Word) :
    (s.writeBank b r v).spsrs = s.spsrs := by
  unfold State.writeBank; split <;> rfl

@[simp] theorem State.writeBank_decoded (b : Bank) (r : RegNum) (v : Word) :
    (s.writeBank b r v).decoded = s.decoded := by
  unfold State.writeBank; split <;> rfl

@[simp] theorem State.writeBank_fetched (b : Bank) (r : RegNum) (v : Word) :
    (s.writeBank b r v).fetched = s.fetched := by
  unfold State.writeBank; split <;> rfl

@[simp] theorem State.writeBank_cycles (b : Bank) (r : RegNum) (v : Word) :
    (s.writeBank b r v).cycles = s.cycles := by
  unfold State.writeBank; split <;> rfl

@[simp] theorem State.writeBank_totalCycles (b : Bank) (r : RegNum) (v : Word) :
    (s.writeBank b r v).totalCycles = s.totalCycles := by
  unfold State.writeBank; split <;> rfl

@[simp] theorem State.writeBank_hook (b : Bank) (r : RegNum) (v : Word) :
    (s.writeBank b r v).hook = s.hook := by
  unfold State.writeBank; split <;> rfl

@[simp] theorem State.writeBank_faultRecord (b : Bank) (r : RegNum) (v : Word) :
    (s.writeBank b r v).faultRecord = s.faultRecord := by
  unfold State.writeBank; split <;> rfl

@[simp] theorem State.writeBank_mem (b : Bank) (r : RegNum) (v : Word) :
    (s.writeBank b r v).mem = s.mem := by
  unfold State.writeBank; split <;> rfl

@[simp] theorem State.writeBank_params (b : Bank) (r : RegNum) (v : Word) :
    (s.writeBank b r v).params = s.params := by
  unfold State.writeBank; split <;> rfl

@[simp] theorem State.writeBank_userBankHazard (b : Bank) (r : RegNum) (v : Word) :
    (s.writeBank b r v).userBankHazard = s.userBankHazard := by
  unfold State.writeBank; split <;> rfl

@[simp] theorem State.writeBank_draws (b : Bank) (r : RegNum) (v : Word) :
    (s.writeBank b r v).draws = s.draws := by
  unfold State.writeBank; split <;> rfl

@[simp] theorem State.writeReg_pc (r : RegNum) (v : Word) :
    (s.writeReg r v).pc = s.pc := by
  simp [State.writeReg]

@[simp] theorem State.writeReg_cpsr (r : RegNum) (v : Word) :
    (s.writeReg r v).cpsr = s.cpsr := by
  simp [State.writeReg]

@[simp] theorem State.writeReg_spsrs (r : RegNum) (v : Word) :
    (s.writeReg r v).spsrs = s.spsrs := by
  simp [State.writeReg]

@[simp] theorem State.writeReg_decoded (r : RegNum) (v : Word) :
    (s.writeReg r v).decoded = s.decoded := by
  simp [State.writeReg]

@[simp] theorem State.writeReg_fetched (r : RegNum) (v : Word) :
    (s.writeReg r v).fetched = s.fetched := by
  simp [State.writeReg]

@[simp] theorem State.writeReg_cycles (r : RegNum) (v : Word) :
    (s.writeReg r v).cycles = s.cycles := by
  simp [State.writeReg]

@[simp] theorem State.writeReg_totalCycles (r : RegNum) (v : Word) :
    (s.writeReg r v).totalCycles = s.totalCycles := by
  simp [State.writeReg]

@[simp] theorem State.writeReg_hook (r : RegNum) (v : Word) :
    (s.writeReg r v).hook = s.hook := by
  simp [State.writeReg]

@[simp] theorem State.writeReg_faultRecord (r : RegNum) (v : Word) :
    (s.writeReg r v).faultRecord = s.faultRecord := by
  simp [State.writeReg]

@[simp] theorem State.writeReg_mem (r : RegNum) (v : Word) :
    (s.writeReg r v).mem = s.mem := by
  simp [State.writeReg]

@[simp] theorem State.writeReg_params (r : RegNum) (v : Word) :
    (s.writeReg r v).params = s.params := by
  simp [State.writeReg]

@[simp] theorem State.writeReg_userBankHazard (r : RegNum) (v : Word) :
    (s.writeReg r v).userBankHazard = s.userBankHazard := by
  simp [State.writeReg]

@[simp] theorem State.writeReg_draws (r : RegNum) (v : Word) :
    (s.writeReg r v).draws = s.draws := by
  simp [State.writeReg]

@[simp] theorem State.writeUser_pc (r : RegNum) (v : Word) :
    (s.writeUser r v).pc = s.pc := by
  simp [State.writeUser]

@[simp] theorem State.writeUser_cpsr (r : RegNum) (v : Word) :
    (s.writeUser r v).cpsr = s.cpsr := by
  simp [State.writeUser]

@[simp] theorem State.writeUser_spsrs (r : RegNum) (v : Word) :
    (s.writeUser r v).spsrs = s.spsrs := by
  simp [State.writeUser]

@[simp] theorem State.writeUser_decoded (r : RegNum) (v : Word) :
    (s.writeUser r v).decoded = s.decoded := by
  simp [State.writeUser]

@[simp] theorem State.writeUser_fetched (r : RegNum) (v : Word) :
    (s.writeUser r v).fetched = s.fetched := by
  simp [State.writeUser]

@[simp] theorem State.writeUser_cycles (r : RegNum) (v : Word) :
    (s.writeUser r v).cycles = s.cycles := by
  simp [State.writeUser]

@[simp] theorem State.writeUser_totalCycles (r : RegNum) (v : Word) :
    (s.writeUser r v).totalCycles = s.totalCycles := by
  simp [State.writeUser]

@[simp] theorem State.writeUser_hook (r : RegNum) (v : Word) :
    (s.writeUser r v).hook = s.hook := by
  simp [State.writeUser]

@[simp] theorem State.writeUser_faultRecord (r : RegNum) (v : Word) :
    (s.writeUser r v).faultRecord = s.faultRecord := by
  simp [State.writeUser]

@[simp] theorem State.writeUser_mem (r : RegNum) (v : Word) :
    (s.writeUser r v).mem = s.mem := by
  simp [State.writeUser]

@[simp] theorem State.writeUser_params (r : RegNum) (v : Word) :
    (s.writeUser r v).params = s.params := by
  simp [State.writeUser]

@[simp] theorem State.writeUser_userBankHazard (r : RegNum) (v : Word) :
    (s.writeUser r v).userBankHazard = s.userBankHazard := by
  simp [State.writeUser]

@[simp] theorem State.writeUser_draws (r : RegNum) (v : Word) :
    (s.writeUser r v).draws = s.draws := by
  simp [State.writeUser]

@[simp] theorem State.writeBack_pc (r : RegNum) (a : Address) :
    (s.writeBack r a).pc = s.pc := by
  unfold State.writeBack; split <;> simp

@[simp] theorem State.writeBack_cpsr (r : RegNum) (a : Address) :
    (s.writeBack r a).cpsr = s.cpsr := by
  unfold State.writeBack; split <;> simp

@[simp] theorem State.writeBack_spsrs (r : RegNum) (a : Address) :
    (s.writeBack r a).spsrs = s.spsrs := by
  unfold State.writeBack; split <;> simp

@[simp] theorem State.writeBack_decoded (r : RegNum) (a : Address) :
    (s.writeBack r a).decoded = s.decoded := by
  unfold State.writeBack; split <;> simp

@[simp] theorem State.writeBack_fetched (r : RegNum) (a : Address) :
    (s.writeBack r a).fetched = s.fetched := by
  unfold State.writeBack; split <;> simp

@[simp] theorem State.writeBack_cycles (r : RegNum) (a : Address) :
    (s.writeBack r a).cycles = s.cycles := by
  unfold State.writeBack; split <;> simp

@[simp] theorem State.writeBack_totalCycles (r : RegNum) (a : Address) :
    (s.writeBack r a).totalCycles = s.totalCycles := by
  unfold State.writeBack; split <;> simp

@[simp] theorem State.writeBack_hook (r : RegNum) (a : Address) :
    (s.writeBack r a).hook = s.hook := by
  unfold State.writeBack; split <;> simp

@[simp] theorem State.writeBack_faultRecord (r : RegNum) (a : Address) :
    (s.writeBack r a).faultRecord = s.faultRecord := by
  unfold State.writeBack; split <;> simp

@[simp] theorem State.writeBack_mem (r : RegNum) (a : Address) :
    (s.writeBack r a).mem = s.mem := by
  unfold State.writeBack; split <;> simp

@[simp] theorem State.writeBack_params (r : RegNum) (a : Address) :
    (s.writeBack r a).params = s.params := by
  unfold State.writeBack; split <;> simp

@[simp] theorem State.writeBack_userBankHazard (r : RegNum) (a : Address) :
    (s.writeBack r a).userBankHazard = s.userBankHazard := by
  unfold State.writeBack; split <;> simp

@[simp] theorem State.writeBack_draws (r : RegNum) (a : Address) :
    (s.writeBack r a).draws = s.draws := by
  unfold State.writeBack; split <;> simp

/-! ## Views that depend on a few fields only -/

theorem State.opSize_eq {s t : State} (h : t.cpsr.t = s.cpsr.t) : t.opSize = s.opSize := by
  simp [State.opSize, h]

theorem State.opWidth_eq {s t : State} (h : t.cpsr.t = s.cpsr.t) : t.opWidth = s.opWidth := by
  simp [State.opWidth, h]

theorem State.bank_eq {s t : State} (h : t.cpsr.m = s.cpsr.m) : t.bank = s.bank := by
  simp [State.bank, Psr.mode, h]

@[simp] theorem Psr.withFlags_m (p : Psr) (x : Word) (c v : Bool) : (p.withFlags x c v).m = p.m := rfl

@[simp] theorem Psr.withFlags_t (p : Psr) (x : Word) (c v : Bool) : (p.withFlags x c v).t = p.t := rfl

@[simp] theorem Psr.withFlags_i (p : Psr) (x : Word) (c v : Bool) : (p.withFlags x c v).i = p.i := rfl

@[simp] theorem Psr.withFlags_f (p : Psr) (x : Word) (c v : Bool) : (p.withFlags x c v).f = p.f := rfl

@[simp] theorem State.setLongMulFlags_m (x : BitVec 64) : (s.setLongMulFlags x).cpsr.m = s.cpsr.m := rfl

@[simp] theorem State.setLongMulFlags_t (x : BitVec 64) : (s.setLongMulFlags x).cpsr.t = s.cpsr.t := rfl

end Sys2Proof.Machine
end

