-- ==== Sys2Proof/Laws/Registers.lean ====
section
/-! SUPPORT. General registers and status registers: a read after a write, the bank mapping, the 32-bit view. -/

namespace Sys2Proof.Machine

/-- A physical register read after a write (R36). -/
theorem RegFile.get_set (f : RegFile) (p q : PhysReg) (v : Word) :
    (f.set p v).get q = if q = p then v else f.get q := by
  cases p <;> cases q <;> simp only [RegFile.get, RegFile.set, PhysReg.usr.injEq, PhysReg.fiq.injEq,
      PhysReg.irq.injEq, PhysReg.svc.injEq, PhysReg.abt.injEq, PhysReg.und.injEq, reduceCtorEq, if_false] <;>
    · next i j =>
      by_cases h : i.val = j.val
      · have : j = i := Fin.ext h.symm
        subst this
        simp
      · have : j ≠ i := fun e => h (congrArg Fin.val e).symm
        simp [this, Vector.getElem_set_ne, h]

/-- In one bank two visible numbers below 15 name different registers (R35). -/
theorem Bank.phys_injective (b : Bank) : ∀ i j : Fin 15, b.phys i = b.phys j → i = j := by
  cases b <;> decide

theorem Bank.reg_eq_none (b : Bank) (r : RegNum) : b.reg r = none ↔ r = 15 := by
  unfold Bank.reg
  have := r.isLt
  constructor
  · intro h
    split at h
    · cases h
    · apply BitVec.eq_of_toNat_eq
      have : (15 : RegNum).toNat = 15 := rfl
      omega
  · rintro rfl
    rfl

theorem Bank.reg_isSome (b : Bank) {r : RegNum} (h : r ≠ 15) : ∃ p, b.reg r = some p := by
  cases hr : b.reg r with
  | none => exact absurd ((Bank.reg_eq_none b r).1 hr) h
  | some p => exact ⟨p, rfl⟩

/-- In one bank two numbers other than 15 that name one register are equal (R35). -/
theorem Bank.reg_injective (b : Bank) {r r' : RegNum} {p : PhysReg} (h : b.reg r = some p)
    (h' : b.reg r' = some p) : r = r' := by
  unfold Bank.reg at h h'
  split at h
  · next hr =>
    split at h'
    · next hr' =>
      have e := b.phys_injective ⟨r.toNat, hr⟩ ⟨r'.toNat, hr'⟩ (by simp_all)
      exact BitVec.eq_of_toNat_eq (Fin.mk.inj_iff.1 e)
    · cases h'
  · cases h

/-- A visible register read after a write through the same bank (R35, R36). -/
theorem State.readBank_writeBank (s : State) (b : Bank) (r r' : RegNum) (v : Word) :
    (s.writeBank b r v).readBank b r' = if r' = r ∧ r ≠ 15 then v else s.readBank b r' := by
  unfold State.readBank State.writeBank
  cases hr : b.reg r with
  | none => simp [(Bank.reg_eq_none b r).1 hr]
  | some p =>
    have hr15 : r ≠ 15 := fun e => by simp [(Bank.reg_eq_none b r).2 e] at hr
    cases hr' : b.reg r' with
    | none =>
      have : r' ≠ r := fun e => by rw [e, hr] at hr'; cases hr'
      simp [this]
    | some q =>
      simp only [RegFile.get_set]
      by_cases e : q = p
      · subst e
        simp only [if_true, Bank.reg_injective b hr' hr, true_and, ne_eq, hr15, not_false_eq_true]
      · have : r' ≠ r := fun h => e (by rw [h, hr] at hr'; exact (Option.some.inj hr').symm)
        simp [e, this]

@[simp] theorem State.writeReg_bank (s : State) (r : RegNum) (v : Word) : (s.writeReg r v).bank = s.bank :=
  State.bank_eq (by simp)

/-- `x[r']` after `x[r] <- v` (R11, R36). -/
theorem State.readReg_writeReg (s : State) (r r' : RegNum) (v : Word) :
    (s.writeReg r v).readReg r' = if r' = r ∧ r ≠ 15 then v else s.readReg r' := by
  rw [State.readReg, State.writeReg_bank]
  exact State.readBank_writeBank s s.bank r r' v

theorem State.readReg_writeReg_self (s : State) {r : RegNum} (v : Word) (h : r ≠ 15) :
    (s.writeReg r v).readReg r = v := by
  rw [State.readReg_writeReg, if_pos ⟨rfl, h⟩]

theorem State.readReg_writeReg_ne (s : State) {r r' : RegNum} (v : Word) (h : r' ≠ r) :
    (s.writeReg r v).readReg r' = s.readReg r' := by
  rw [State.readReg_writeReg, if_neg fun e => h e.1]

/-- A physical register after `x[r] <- v` through a bank. -/
theorem State.get_writeBank (s : State) (b : Bank) (r : RegNum) (v : Word) (p : PhysReg) :
    (s.writeBank b r v).regs.get p = if b.reg r = some p then v else s.regs.get p := by
  unfold State.writeBank
  cases hr : b.reg r with
  | none => simp
  | some q =>
    simp only [RegFile.get_set, Option.some.injEq]
    by_cases e : p = q
    · simp [e]
    · simp [e, Ne.symm e]

/-- A visible register depends on the physical registers, the mode and the pc alone. -/
theorem State.readReg_congr {s t : State} (h : t.regs = s.regs) (hm : t.cpsr.m = s.cpsr.m) {r : RegNum}
    (hr : r ≠ 15) : t.readReg r = s.readReg r := by
  obtain ⟨p, hp⟩ := Bank.reg_isSome s.bank hr
  simp [State.readReg, State.readBank, State.bank_eq hm, hp, h]

/-! ## The 32-bit view of a status register (R39) -/

/-- The bits of the 32-bit view. -/
theorem Psr.toWord_getLsbD (p : Psr) (k : Nat) : p.toWord.getLsbD k =
    if k < 5 then p.m.getLsbD k
    else if k = 5 then p.t
    else if k = 6 then p.f
    else if k = 7 then p.i
    else if k < 28 then p.reserved.getLsbD (k - 8)
    else if k = 28 then p.v
    else if k = 29 then p.c
    else if k = 30 then p.z
    else if k = 31 then p.n
    else false := by
  show BitVec.getLsbD (w := 1 + 1 + 1 + 1 + 20 + 1 + 1 + 1 + 5) (BitVec.ofBool p.n ++ BitVec.ofBool p.z ++
    BitVec.ofBool p.c ++ BitVec.ofBool p.v ++ p.reserved ++ BitVec.ofBool p.i ++ BitVec.ofBool p.f ++
    BitVec.ofBool p.t ++ p.m) k = _
  simp only [BitVec.getLsbD_append]
  rcases Nat.lt_or_ge k 32 with h | h
  · interval_cases k <;> simp
  · simp [show ¬ k < 5 by omega, show ¬ k - 5 < 1 by omega, show ¬ k - 5 - 1 < 1 by omega,
      show ¬ k - 5 - 1 - 1 < 1 by omega, show ¬ k - 5 - 1 - 1 - 1 < 20 by omega,
      show ¬ k - 5 - 1 - 1 - 1 - 20 < 1 by omega, show ¬ k - 5 - 1 - 1 - 1 - 20 - 1 < 1 by omega,
      show ¬ k - 5 - 1 - 1 - 1 - 20 - 1 - 1 < 1 by omega, show ¬ k < 28 by omega, show k ≠ 5 by omega,
      show k ≠ 6 by omega, show k ≠ 7 by omega, show k ≠ 28 by omega, show k ≠ 29 by omega,
      show k ≠ 30 by omega, show k ≠ 31 by omega]
    omega

theorem Psr.ofWord_toWord (p : Psr) : Psr.ofWord p.toWord = p := by
  have hm : p.toWord.extractLsb' 0 5 = p.m := by
    ext k hk
    have : k < 5 := hk
    simp [Psr.toWord_getLsbD, this]
  have hr : p.toWord.extractLsb' 8 20 = p.reserved := by
    ext k hk
    have : k < 20 := hk
    simp [Psr.toWord_getLsbD, show ¬ 8 + k < 5 by omega, show 8 + k ≠ 5 by omega, show 8 + k ≠ 6 by omega,
      show 8 + k ≠ 7 by omega, show 8 + k < 28 by omega]
    exact BitVec.getLsbD_eq_getElem this
  simp only [Psr.ofWord, hm, hr, Psr.toWord_getLsbD]
  simp

/-- The word of a status register read from a word is that word: no bit is dropped (R44). -/
theorem Psr.toWord_ofWord (w : Word) : (Psr.ofWord w).toWord = w := by
  apply BitVec.eq_of_getLsbD_eq
  intro k hk
  rw [Psr.toWord_getLsbD]
  interval_cases k <;> simp [Psr.ofWord]

end Sys2Proof.Machine
end

