-- ==== Sys2Proof/Laws/Control.lean ====
section
/-! SUPPORT. The UNPREDICTABLE policy and the condition: when an instruction goes on, and as what (R13, R186 to
R188). -/

namespace Sys2Proof.Machine

theorem firstStop_eq_none (p : UnpredPolicy) (ks : List Check) :
    firstStop p ks = none ↔ ∀ k ∈ ks, k.holds = true → k.both = false ∧ p = .implement := by
  induction ks with
  | nil => simp [firstStop]
  | cons k ks ih =>
    simp only [firstStop, List.mem_cons, forall_eq_or_imp]
    cases hk : k.holds
    · simpa [hk] using ih
    · cases hb : k.both
      · cases p
        · simp
        · simpa using ih
      · simp

/-- An instruction whose U-cases do not stop the model is the instruction (R13). -/
theorem State.guarded_of_none {s : State} {ks : List Check} (r : Result State)
    (h : firstStop s.params.unpred ks = none) : s.guarded ks r = r := by
  simp [State.guarded, h]

/-- A guarded instruction reaches a next state exactly where no U-case stops it and the instruction does. -/
theorem State.guarded_next {s : State} {ks : List Check} {r : Result State} {t : State} :
    s.guarded ks r = .next t ↔ firstStop s.params.unpred ks = none ∧ r = .next t := by
  unfold State.guarded
  cases firstStop s.params.unpred ks <;> simp

/-- An ARM instruction whose condition passes is the instruction (R186). -/
theorem State.underCond_of_passes {s : State} {c : Cond} (r : Result State) (h : c.passes s.cpsr = true) :
    s.underCond c r = r := by
  have hc : (c == .nv) = false := by cases c <;> first | rfl | simp [Cond.passes] at h
  simp [State.underCond, State.guarded, firstStop, hc, h]

/-- An ARM instruction reaches a next state by passing its condition or by the fetch alone (R186 to R188). -/
theorem State.underCond_next {s : State} {c : Cond} {r : Result State} {t : State}
    (h : s.underCond c r = .next t) :
    (c.passes s.cpsr = true ∧ r = .next t) ∨ (c.passes s.cpsr = false ∧ t = s.fetchNext .seq) := by
  rw [State.underCond, State.guarded_next] at h
  cases hp : c.passes s.cpsr <;> simp [hp] at h
  · exact .inr ⟨rfl, h.2.symm⟩
  · exact .inl ⟨rfl, h.2⟩

/-- A failed condition other than NV, or NV under `implement`, only fetches (R187, R188). -/
theorem State.underCond_of_fails {s : State} {c : Cond} (r : Result State) (h : c.passes s.cpsr = false)
    (hc : c ≠ .nv ∨ s.params.unpred = .implement) : s.underCond c r = .next (s.fetchNext .seq) := by
  rw [State.underCond, State.guarded_next]
  refine ⟨?_, by simp [h]⟩
  rw [firstStop_eq_none]
  simpa using fun e => hc.resolve_left (not_not.2 e)

@[simp] theorem State.hazardCheck_both (s : State) (rs : List RegNum) : (s.hazardCheck rs).both = false := rfl

@[simp] theorem State.entryHazardCheck_both (s : State) : s.entryHazardCheck.both = false := rfl

@[simp] theorem State.prefetchCheck_both (s : State) (a : Word) (w : Width) : (s.prefetchCheck a w).both = false := rfl

@[simp] theorem State.prefetchCheck_holds (s : State) (a : Word) (w : Width) :
    (s.prefetchCheck a w).holds = s.hitsPrefetch a w := rfl

/-- U27 does not arise but after LDM(2) (R354). -/
theorem State.hazardCheck_holds {s : State} (h : s.userBankHazard = false) (rs : List RegNum) :
    (s.hazardCheck rs).holds = false := by
  simp [State.hazardCheck, h]

/-- No U-case but those of a state that is strict about them is open in a lenient state. -/
theorem State.Lenient.none {s : State} {p : Prop} {ks : List Check} (h : s.Lenient p)
    (hb : ∀ k ∈ ks, k.both = true → k.holds = false)
    (hp : s.userBankHazard = false → p → ∀ k ∈ ks, k.holds = false) : firstStop s.params.unpred ks = none := by
  rw [firstStop_eq_none]
  intro k hk hh
  rcases h with h | ⟨hz, h⟩
  · refine ⟨?_, h⟩
    cases hkb : k.both
    · rfl
    · simp [hb k hk hkb] at hh
  · simp [hp hz h k hk] at hh

end Sys2Proof.Machine
end

