-- ==== Sys2Proof/Laws/Memory.lean ====
section
/-! SUPPORT. Memory: what a read gives after a write, and that every operation keeps the canonical form. -/

namespace Sys2Proof.Machine

/-! ## One byte -/

theorem Mem.read_erase (m : Mem) (a b : Nat) :
    Mem.read (Mem.erase m a) b = if b = a then Mem.unlisted else Mem.read m b := by
  induction m with
  | nil => simp [Mem.erase, Mem.read]
  | cons c m ih =>
    by_cases hc : c.1 = a
    · simp only [Mem.erase, hc, if_true, ih, Mem.read]
      by_cases hb : b = a
      · simp [hb]
      · simp [hb, Ne.symm hb]
    · simp only [Mem.erase, hc, if_false, Mem.read, ih]
      by_cases hcb : c.1 = b
      · have : b ≠ a := fun h => hc (hcb.trans h)
        simp [hcb, this]
      · simp [hcb]

/-- Inserting where no entry of the address is puts the value there and nowhere else. -/
theorem Mem.read_insert (m : Mem) (a : Nat) (v : Byte) (b : Nat) (h : Mem.read m a = Mem.unlisted)
    (hm : ∀ c ∈ m, c.1 ≠ a) : Mem.read (Mem.insert m a v) b = if b = a then v else Mem.read m b := by
  induction m with
  | nil => simp [Mem.insert, Mem.read, eq_comm]
  | cons c m ih =>
    have hca : c.1 ≠ a := hm c (by simp)
    by_cases hlt : a < c.1
    · simp [Mem.insert, hlt, Mem.read, eq_comm]
    · simp only [Mem.insert, hlt, if_false, Mem.read]
      by_cases hcb : c.1 = b
      · have : b ≠ a := fun e => hca (hcb.trans e)
        simp [hcb, this]
      · simp only [hcb, if_false]
        exact ih (by simpa [Mem.read, hca] using h) (fun x hx => hm x (by simp [hx]))

theorem Mem.erase_ne (m : Mem) (a : Nat) : ∀ c ∈ Mem.erase m a, c.1 ≠ a := by
  induction m with
  | nil => simp [Mem.erase]
  | cons d m ih =>
    by_cases hd : d.1 = a
    · simpa [Mem.erase, hd] using ih
    · intro c hc
      simp only [Mem.erase, hd, if_false, List.mem_cons] at hc
      rcases hc with rfl | hc
      · exact hd
      · exact ih c hc

/-- A read after a write gives the value written at its address, and what was there elsewhere. -/
theorem Mem.read_write (m : Mem) (a : Nat) (v : Byte) (b : Nat) :
    Mem.read (Mem.write m a v) b = if b = a then v else Mem.read m b := by
  unfold Mem.write
  split
  · next h => rw [Mem.read_erase]; simp [h]
  · rw [Mem.read_insert _ _ _ _ (by simp [Mem.read_erase]) (Mem.erase_ne m a), Mem.read_erase]
    split <;> rfl

/-- A byte read after a byte write (R86). -/
theorem Mem.byteAt_setByte (m : Mem) (a : Word) (v : Byte) (b : Word) :
    (m.setByte a v).byteAt b = if b = a then v else m.byteAt b := by
  simp [Mem.byteAt, Mem.setByte, Mem.read_write, BitVec.toNat_inj]

/-! ## The canonical form -/

theorem Mem.wfFrom_mono (m : Mem) {lo hi : Nat} (h : lo ≤ hi) (hm : Mem.wfFrom hi m = true) :
    Mem.wfFrom lo m = true := by
  cases m with
  | nil => rfl
  | cons c m =>
    simp only [Mem.wfFrom, Bool.and_eq_true, decide_eq_true_eq] at hm ⊢
    exact ⟨⟨⟨le_trans h hm.1.1.1, hm.1.1.2⟩, hm.1.2⟩, hm.2⟩

theorem Mem.wfFrom_erase (m : Mem) (lo a : Nat) (h : Mem.wfFrom lo m = true) :
    Mem.wfFrom lo (Mem.erase m a) = true := by
  induction m generalizing lo with
  | nil => rfl
  | cons c m ih =>
    simp only [Mem.wfFrom, Bool.and_eq_true, decide_eq_true_eq] at h
    by_cases hc : c.1 = a
    · simp only [Mem.erase, hc, if_true]
      exact Mem.wfFrom_mono _ (by omega) (ih (c.1 + 1) h.2)
    · simp only [Mem.erase, hc, if_false, Mem.wfFrom, Bool.and_eq_true, decide_eq_true_eq]
      exact ⟨h.1, ih _ h.2⟩

theorem Mem.wfFrom_insert (m : Mem) (lo a : Nat) (v : Byte) (h : Mem.wfFrom lo m = true) (hlo : lo ≤ a)
    (ha : a < 2 ^ 32) (hv : v ≠ Mem.unlisted) (hm : ∀ c ∈ m, c.1 ≠ a) :
    Mem.wfFrom lo (Mem.insert m a v) = true := by
  induction m generalizing lo with
  | nil =>
    simp only [Mem.insert, Mem.wfFrom, Bool.and_eq_true, decide_eq_true_eq, and_true]
    exact ⟨⟨hlo, ha⟩, by simpa using hv⟩
  | cons c m ih =>
    simp only [Mem.wfFrom, Bool.and_eq_true, decide_eq_true_eq] at h
    have hca : c.1 ≠ a := hm c (by simp)
    by_cases hlt : a < c.1
    · simp only [Mem.insert, hlt, if_true, Mem.wfFrom, Bool.and_eq_true, decide_eq_true_eq]
      exact ⟨⟨⟨hlo, ha⟩, by simpa using hv⟩, ⟨⟨⟨hlt, h.1.1.2⟩, h.1.2⟩, h.2⟩⟩
    · simp only [Mem.insert, hlt, if_false, Mem.wfFrom, Bool.and_eq_true, decide_eq_true_eq]
      exact ⟨h.1, ih _ h.2 (by omega) (fun x hx => hm x (by simp [hx]))⟩

theorem Mem.wf_setByte (m : Mem) (a : Word) (v : Byte) (h : m.wf = true) : (m.setByte a v).wf = true := by
  unfold Mem.setByte Mem.write Mem.wf
  split
  · exact Mem.wfFrom_erase _ _ _ h
  · next hv =>
    exact Mem.wfFrom_insert _ _ _ _ (Mem.wfFrom_erase _ _ _ h) (Nat.zero_le _) a.isLt hv (Mem.erase_ne m _)

theorem Mem.wf_store (m : Mem) (a v : Word) (w : Width) (h : m.wf = true) : (m.store a v w).wf = true := by
  cases w
  · exact Mem.wf_setByte _ _ _ h
  · exact Mem.wf_setByte _ _ _ (Mem.wf_setByte _ _ _ h)
  · exact Mem.wf_setByte _ _ _ (Mem.wf_setByte _ _ _ (Mem.wf_setByte _ _ _ (Mem.wf_setByte _ _ _ h)))

theorem Mem.wf_setBytes (m : Mem) (l : List (Word × Byte)) (h : m.wf = true) : (m.setBytes l).wf = true := by
  induction l generalizing m with
  | nil => exact h
  | cons x l ih => exact ih _ (Mem.wf_setByte _ _ _ h)

theorem Mem.wf_setRun (m : Mem) (a : Word) (l : List Byte) (h : m.wf = true) : (m.setRun a l).wf = true := by
  induction l generalizing m a with
  | nil => exact h
  | cons x l ih => exact ih _ _ (Mem.wf_setByte _ _ _ h)

/-- Memory after reset has the canonical form. -/
theorem State.reset_memWf : State.reset.mem.wf = true := rfl

/-! ## Accesses -/

/-- A byte outside the bytes of a store reads as before (R86). -/
theorem Mem.byteAt_store_outside (m : Mem) (a v : Word) (w : Width) (x : Word) (h : w.bytes ≤ (x - a).toNat) :
    (m.store a v w).byteAt x = m.byteAt x := by
  have ne : ∀ k : Word, k.toNat < w.bytes → x ≠ a + k := by
    rintro k hk rfl
    rw [BitVec.add_comm a k, BitVec.add_sub_cancel] at h
    omega
  have n0 : x ≠ a := by simpa using ne 0 (by cases w <;> decide)
  cases w with
  | byte => simp [Mem.store, Mem.byteAt_setByte, n0]
  | half =>
    have n1 : x ≠ a + 1#32 := ne 1 (by decide)
    simp [Mem.store, Mem.byteAt_setByte, n0, n1]
  | word =>
    have n1 : x ≠ a + 1#32 := ne 1 (by decide)
    have n2 : x ≠ a + 2#32 := ne 2 (by decide)
    have n3 : x ≠ a + 3#32 := ne 3 (by decide)
    simp [Mem.store, Mem.byteAt_setByte, n0, n1, n2, n3]

theorem add_ne_add (a : Word) {i j : Word} (h : i ≠ j) : a + i ≠ a + j := fun e => h (BitVec.add_right_inj a |>.1 e)

/-- A load after a store of the same access gives the bytes stored, zero-extended (R81, R86). -/
theorem Mem.load_store (m : Mem) (a v : Word) :
    (m.store a v .byte).load a .byte = (v.extractLsb' 0 8).setWidth 32 ∧
    (m.store a v .half).load a .half = (v.extractLsb' 0 16).setWidth 32 ∧
    (m.store a v .word).load a .word = v := by
  have h1 : a + 1 ≠ a := by simp
  have h2 : a + 2 ≠ a := by simp
  have h3 : a + 3 ≠ a := by simp
  have h12 := add_ne_add a (show (1 : Word) ≠ 2 by decide)
  have h13 := add_ne_add a (show (1 : Word) ≠ 3 by decide)
  have h23 := add_ne_add a (show (2 : Word) ≠ 3 by decide)
  refine ⟨by simp [Mem.store, Mem.load, Mem.byteAt_setByte], ?_, ?_⟩
  · simp only [Mem.store, Mem.load, Mem.byteAt_setByte, if_true, h1.symm, if_false]
    congr 1
    ext i hi
    simp only [BitVec.getElem_append, BitVec.getElem_extractLsb']
    split
    · rfl
    · congr 1; omega
  · simp only [Mem.store, Mem.load, Mem.byteAt_setByte, if_true, h1.symm, h2.symm, h3.symm, h12, h13, h23, if_false]
    ext i hi
    simp only [BitVec.getElem_append, BitVec.getElem_extractLsb']
    have : v[i] = v.getLsbD i := by simp [BitVec.getLsbD_eq_getElem, hi]
    rw [this]
    split
    · simp
    · split
      · congr 1; omega
      · split <;> (congr 1; omega)

/-- Two memories with equal bytes give equal loads. -/
theorem Mem.load_congr {m m' : Mem} (h : ∀ x : Word, m'.byteAt x = m.byteAt x) (a : Word) (w : Width) :
    m'.load a w = m.load a w := by
  cases w <;> simp [Mem.load, h]

/-- The bytes a store wrote (R86). -/
theorem Mem.load_store_low (m : Mem) (a v : Word) (w : Width) : (m.store a v w).load a w = w.low v := by
  have := Mem.load_store m a v
  cases w
  · exact this.1
  · exact this.2.1
  · exact this.2.2

/-- A value read fits the width of its access (R81). -/
theorem Width.low_lt (w : Width) (v : Word) : (w.low v).toNat < 2 ^ (8 * w.bytes) := by
  cases w
  · simp only [Width.low, Width.bytes, BitVec.toNat_setWidth]
    omega
  · simp only [Width.low, Width.bytes, BitVec.toNat_setWidth]
    omega
  · exact v.isLt

theorem Mem.load_lt (m : Mem) (a : Word) (w : Width) : (m.load a w).toNat < 2 ^ (8 * w.bytes) := by
  cases w
  · simp only [Mem.load, Width.bytes, BitVec.toNat_setWidth]
    have := (m.byteAt a).isLt
    omega
  · simp only [Mem.load, Width.bytes, BitVec.toNat_setWidth]
    have := (m.byteAt (a + 1) ++ m.byteAt a).isLt
    omega
  · exact (m.load a .word).isLt

/-! ## The port -/

/-- A read outside the windows that answer gives the bytes last written (R85). -/
theorem State.portRead_stored {s : State} {a : Word} (h : s.params.answers a = false) (k : AccessKind) (w : Width) :
    s.portRead k a w = s.mem.load a w := by
  simp [State.portRead, h]

/-- A read depends on the memory, the parameters and the counter of free values alone. -/
theorem State.portRead_congr {s t : State} (hm : t.mem = s.mem) (hp : t.params = s.params) (hd : t.draws = s.draws)
    (k : AccessKind) (a : Word) (w : Width) : t.portRead k a w = s.portRead k a w := by
  simp [State.portRead, hm, hp, hd]

theorem State.portRead_lt (s : State) (k : AccessKind) (a : Word) (w : Width) :
    (s.portRead k a w).toNat < 2 ^ (8 * w.bytes) := by
  unfold State.portRead
  split
  · exact Width.low_lt w _
  · exact s.mem.load_lt a w

/-- A write the host takes is in memory (R85, R86). -/
theorem State.portStore_taken {s : State} {a : Word} (h : s.params.drops a = false) (w : Width) (v : Word) :
    s.portStore a w v = s.mem.store a v w := by
  simp [State.portStore, h]

/-- A byte outside the bytes a write stores reads as before (R85, R86). -/
theorem State.byteAt_portStore {s : State} {a x : Word} {w : Width} (v : Word)
    (h : s.params.drops a = false → w.bytes ≤ (x - a).toNat) : (s.portStore a w v).byteAt x = s.mem.byteAt x := by
  unfold State.portStore
  cases hd : s.params.drops a
  · exact Mem.byteAt_store_outside _ _ _ _ _ (h hd)
  · rfl

theorem State.wf_portStore {s : State} (a : Word) (w : Width) (v : Word) (h : s.mem.wf = true) :
    (s.portStore a w v).wf = true := by
  unfold State.portStore
  split
  · exact h
  · exact Mem.wf_store _ _ _ _ h

/-! ## Aligned addresses -/

/-- The address presented is the highest multiple of the width not above the address (R87). -/
theorem alignTo_toNat (w : Width) (a : Word) : (alignTo w a).toNat = a.toNat / w.bytes * w.bytes := by
  have shape : ∀ (n : Nat) (mask : Word),
      (∀ k, k < 32 → mask.getLsbD k = decide (n ≤ k)) → (a &&& mask).toNat = a.toNat / 2 ^ n * 2 ^ n := by
    intro n mask hm
    have : a &&& mask = (a >>> n) <<< n := by
      apply BitVec.eq_of_getLsbD_eq
      intro k hk
      simp only [BitVec.getLsbD_and, hm k hk, BitVec.getLsbD_shiftLeft, BitVec.getLsbD_ushiftRight, hk, decide_true,
        Bool.true_and]
      by_cases h : n ≤ k
      · simp [h, Nat.not_lt.2 h]
      · simp [h, Nat.lt_of_not_le h]
    rw [this, BitVec.toNat_shiftLeft, BitVec.toNat_ushiftRight, Nat.shiftRight_eq_div_pow, Nat.shiftLeft_eq]
    apply Nat.mod_eq_of_lt
    have := Nat.div_mul_le_self a.toNat (2 ^ n)
    omega
  cases w
  · simp [alignTo, Width.bytes]
  · exact shape 1 _ (by decide)
  · exact shape 2 _ (by decide)

theorem alignTo_alignTo (w : Width) (a : Word) : alignTo w (alignTo w a) = alignTo w a := by
  apply BitVec.eq_of_toNat_eq
  simp only [alignTo_toNat]
  cases w <;> simp [Width.bytes]

/-- A multiple of the width moved by the width is one. -/
theorem alignTo_add (w : Width) (a : Word) :
    alignTo w (alignTo w a + BitVec.ofNat 32 w.bytes) = alignTo w a + BitVec.ofNat 32 w.bytes := by
  apply BitVec.eq_of_toNat_eq
  have := a.isLt
  cases w
  · rfl
  · simp only [alignTo_toNat, BitVec.toNat_add, BitVec.toNat_ofNat, Width.bytes]
    omega
  · simp only [alignTo_toNat, BitVec.toNat_add, BitVec.toNat_ofNat, Width.bytes]
    omega

theorem State.opSize_bytes (s : State) : s.opSize = BitVec.ofNat 32 s.opWidth.bytes := by
  cases h : s.cpsr.t <;> simp [State.opSize, State.opWidth, h, Width.bytes]

end Sys2Proof.Machine
end

