-- ==== Sys2Proof/Laws/Ends.lean ====
section
/-! SUPPORT. How an instruction ends: the terms of Safety.lean said of the operations that end one, the next fetch
(R191) and the branch (R189). -/

namespace Sys2Proof.Machine

/-- A state with another CPSR, `k` more cycles and `d` more free values drawn: what precedes the register write of
most instructions. -/
def State.tuned (s : State) (p : Psr) (k d : Nat) : State :=
  { s with cpsr := p, cycles := s.cycles + k, draws := s.draws + d }

/-! ## Frames -/

theorem State.Frame.refl (s : State) (rs : List RegNum) : s.Frame s rs := ⟨fun _ _ => rfl, rfl, rfl, rfl, rfl, rfl⟩

/-- A frame speaks of the registers, the SPSRs and four fields alone. -/
theorem State.Frame.congr {s t u : State} {rs : List RegNum} (h : s.Frame t rs) (hr : u.regs = t.regs)
    (hs : u.spsrs = t.spsrs) (hp : u.params = t.params) (hh : u.hook = t.hook)
    (hf : u.faultRecord = t.faultRecord) (hc : u.totalCycles = t.totalCycles) : s.Frame u rs :=
  ⟨fun p hp' => by rw [hr]; exact h.regs p hp', hs.trans h.spsrs, hp.trans h.params, hh.trans h.hook,
    hf.trans h.record, hc.trans h.total⟩

/-- A frame holds with more registers. -/
theorem State.Frame.mono {s t : State} {rs rs' : List RegNum} (h : s.Frame t rs) (hr : ∀ r ∈ rs, r ∈ rs') :
    s.Frame t rs' :=
  ⟨fun p hp => h.regs p fun r hm => hp r (hr r hm), h.spsrs, h.params, h.hook, h.record, h.total⟩

/-- A register write in the same bank adds its register to the frame. -/
theorem State.Frame.writeBank {s t : State} {rs : List RegNum} (h : s.Frame t rs) {b : Bank} (hb : b = s.bank)
    (r : RegNum) (v : Word) (hr : r ∈ rs) : s.Frame (t.writeBank b r v) rs := by
  subst hb
  refine ⟨fun p hp => ?_, by simp [h.spsrs], by simp [h.params], by simp [h.hook], by simp [h.record],
    by simp [h.total]⟩
  rw [State.get_writeBank, if_neg (hp r hr)]
  exact h.regs p hp

theorem State.Frame.writeReg {s t : State} {rs : List RegNum} (h : s.Frame t rs) (hb : t.bank = s.bank)
    (r : RegNum) (v : Word) (hr : r ∈ rs) : s.Frame (t.writeReg r v) rs := h.writeBank hb r v hr

theorem State.Frame.fetchNext {s t : State} {rs : List RegNum} (h : s.Frame t rs) (q : Seq) :
    s.Frame (t.fetchNext q) rs := h.congr rfl rfl rfl rfl rfl rfl

theorem State.Frame.branchTo {s t : State} {rs : List RegNum} (h : s.Frame t rs) (x : Word) :
    s.Frame (t.branchTo x) rs := h.congr rfl rfl rfl rfl rfl rfl

theorem State.Frame.tuned (s : State) (rs : List RegNum) (p : Psr) (k d : Nat) : s.Frame (s.tuned p k d) rs :=
  (State.Frame.refl s rs).congr rfl rfl rfl rfl rfl rfl

/-! ## The two ends -/

/-- The next fetch after a state that kept the pipeline (R191). -/
theorem State.advanced_fetchNext {s t : State} {k : Nat} (q : Seq) (hpc : t.pc = s.pc)
    (ht : t.cpsr.t = s.cpsr.t) (hd : t.decoded = s.decoded) (hp : t.params = s.params)
    (hc : t.cycles = s.cycles + k) : s.Advanced (t.fetchNext q) q k := by
  have hw : t.opWidth = s.opWidth := by simp [State.opWidth, ht]
  have hs : t.opSize = s.opSize := by simp [State.opSize, ht]
  exact ⟨by simp [hpc, hs], by simp [hd], by
      rw [State.fetchNext_fetched, State.fetchAt, hpc, hw]
      exact (State.portRead_congr rfl rfl rfl _ _ _).symm, by simp [hpc, hw, hp, hc]⟩

/-- After a refill the next instruction is the one at the aligned target (R183, R189). -/
theorem State.refill_instrAddr (s : State) (x : Word) : (s.refill x).instrAddr = alignTo s.opWidth x := by
  have two : ∀ a k : Word, a + k + k - (k + k) = a := fun a k => by
    rw [BitVec.add_assoc, BitVec.add_sub_cancel]
  cases h : s.cpsr.t
  · have := two (alignTo s.opWidth x) 4
    simpa [State.instrAddr, State.refill, State.opSize, h] using this
  · have := two (alignTo s.opWidth x) 2
    simpa [State.instrAddr, State.refill, State.opSize, h] using this

/-- The latches after a refill (R189). -/
theorem State.refill_latches (s : State) (x : Word) :
    (s.refill x).decoded = s.portRead .code (alignTo s.opWidth x) s.opWidth ∧
    (s.refill x).fetched = s.portRead .code (alignTo s.opWidth x + s.opSize) s.opWidth := by
  constructor
  · show s.portRead .code (alignTo s.opWidth (alignTo s.opWidth x)) s.opWidth = _
    rw [alignTo_alignTo]
  · show s.portRead .code (alignTo s.opWidth (alignTo s.opWidth x + s.opSize)) s.opWidth = _
    rw [State.opSize_bytes, alignTo_add]

/-- A branch after a state that kept the pc (R189): the instruction-set state is that of the branching state. -/
theorem State.branched_branchTo {s t : State} {k : Nat} (x : Word) (hpc : t.pc = s.pc) (hp : t.params = s.params)
    (hc : t.cycles = s.cycles + k) : s.Branched (t.branchTo x) x k := by
  have hw : (t.branchTo x).opWidth = t.opWidth := rfl
  have hs : (t.branchTo x).opSize = t.opSize := rfl
  refine ⟨by rw [hw, hs]; rfl, ?_, ?_, ?_⟩
  · rw [hw]
    exact (t.refill_latches x).1
  · rw [hw, hs]
    exact (t.refill_latches x).2
  · rw [hw, hs]
    simp [State.branchTo, State.refillCost, hpc, hp, hc]
    omega

/-- `x[r]` for r other than R15 does not see the pipeline. -/
theorem State.readReg_fetchNext (s : State) (q : Seq) {r : RegNum} (h : r ≠ 15) :
    (s.fetchNext q).readReg r = s.readReg r :=
  State.readReg_congr (s := s) (t := s.fetchNext q) rfl rfl h

theorem State.readBank_congr {s t : State} (h : t.regs = s.regs) (b : Bank) {r : RegNum} (hr : r ≠ 15) :
    t.readBank b r = s.readBank b r := by
  obtain ⟨p, hp⟩ := Bank.reg_isSome b hr
  simp [State.readBank, hp, h]

/-! ## Outcomes -/

/-- The end of an instruction that does not branch, from what holds before the fetch. -/
theorem State.computes_fetchNext {s u : State} {ws : List (RegNum × Word)} {p : Psr} {k d : Nat}
    (hr : ∀ w ∈ ws, w.1 ≠ 15 ∧ u.readReg w.1 = w.2) (hf : s.Frame u (ws.map Prod.fst)) (hp : u.cpsr = p)
    (hpc : u.pc = s.pc) (ht : p.t = s.cpsr.t) (hd : u.decoded = s.decoded) (hc : u.cycles = s.cycles + k)
    (hm : u.mem = s.mem) (hn : u.draws = s.draws + d) : s.Computes (.next (u.fetchNext .seq)) ws p k d :=
  ⟨_, rfl, fun w hw => (State.readReg_fetchNext u .seq (hr w hw).1).trans (hr w hw).2, hp, hf.fetchNext _,
    fun x => by simp [hm], State.advanced_fetchNext _ hpc (by rw [hp, ht]) hd hf.params hc, hn⟩

/-- The end of an instruction that branches, from what holds before the branch. -/
theorem State.branches_branchTo {s u : State} {ws : List (RegNum × Word)} {p : Psr} {k d : Nat} {x : Word}
    (hr : ∀ w ∈ ws, w.1 ≠ 15 → u.readBank s.bank w.1 = w.2) (hf : s.Frame u (ws.map Prod.fst)) (hp : u.cpsr = p)
    (hpc : u.pc = s.pc) (hc : u.cycles = s.cycles + k) (hm : u.mem = s.mem) (hn : u.draws = s.draws + d) :
    s.Branches (.next (u.branchTo x)) x ws p k d := by
  refine ⟨_, rfl, fun w hw => ?_, hp, hf.branchTo _, fun y => by simp [hm],
    State.branched_branchTo x hpc hf.params hc, hn⟩
  by_cases h : w.1 = 15
  · exact .inl ((Bank.reg_eq_none _ _).2 h)
  · exact .inr ((State.readBank_congr (s := u) (t := u.branchTo x) rfl _ h).trans (hr w hw h))

/-- The end of an instruction that writes no register and does not branch. -/
theorem State.computes_tuned (s : State) (p : Psr) (k d : Nat) (ht : p.t = s.cpsr.t) :
    s.Computes (.next ((s.tuned p k d).fetchNext .seq)) [] p k d :=
  State.computes_fetchNext (by simp) (.tuned s _ p k d) rfl rfl ht rfl rfl rfl rfl

/-- The end of an instruction that writes one register. -/
theorem State.computes_write (s : State) (p : Psr) (k d : Nat) (rd : RegNum) (v : Word) (hm : p.m = s.cpsr.m)
    (ht : p.t = s.cpsr.t) (hr : rd ≠ 15) :
    s.Computes (.next (((s.tuned p k d).writeReg rd v).fetchNext .seq)) [(rd, v)] p k d := by
  refine State.computes_fetchNext ?_ ((State.Frame.tuned s _ p k d).writeReg (State.bank_eq hm) rd v (by simp))
    (by simp [State.tuned]) (by simp [State.tuned]) ht (by simp [State.tuned]) (by simp [State.tuned])
    (by simp [State.tuned]) (by simp [State.tuned])
  intro w hw
  rw [List.mem_singleton.1 hw]
  exact ⟨hr, State.readReg_writeReg_self _ v hr⟩

/-- The end of an instruction that only branches. -/
theorem State.branches_tuned (s : State) (p : Psr) (k d : Nat) (x : Word) :
    s.Branches (.next ((s.tuned p k d).branchTo x)) x [] p k d :=
  State.branches_branchTo (by simp) (.tuned s _ p k d) rfl rfl rfl rfl rfl

theorem State.loadTail_frame (s : State) (ea : Word) (w : Width) (rn : RegNum) (a : Address) (rs : List RegNum)
    (h : a.wb = true → rn ∈ rs) : s.Frame (s.loadTail ea w rn a) rs := by
  have f0 : s.Frame ((s.chargeData ea w .nonSeq).internal 1) rs :=
    (State.Frame.refl s rs).congr rfl rfl rfl rfl rfl rfl
  unfold State.loadTail State.writeBack
  split
  · next hw => exact f0.writeReg rfl rn _ (h hw)
  · exact f0

theorem State.loadTail_bank (s : State) (ea : Word) (w : Width) (rn : RegNum) (a : Address) :
    (s.loadTail ea w rn a).bank = s.bank := State.bank_eq (by simp [State.loadTail])

theorem State.loadTail_base (s : State) (ea : Word) (w : Width) (rn : RegNum) (a : Address) (hw : a.wb = true)
    (hn : rn ≠ 15) : (s.loadTail ea w rn a).readReg rn = a.offaddr := by
  rw [State.loadTail, State.writeBack, if_pos hw, State.readReg_writeReg_self _ _ hn]

/-- The end of a load: the base written back, then Rd (R311). -/
theorem State.computes_load (s : State) (ea : Word) (w : Width) (rn rd : RegNum) (a : Address) (v : Word)
    (hd : rd ≠ 15) (hn : a.wb = true → rn ≠ 15) :
    s.Computes (.next (((s.loadTail ea w rn a).writeReg rd v).fetchNext .seq))
      (State.written rn a (some (rd, v))) s.cpsr (s.params.cost ea w .data .nonSeq + 1) 0 := by
  have hb := s.loadTail_bank ea w rn a
  by_cases hw : a.wb = true ∧ rn ≠ rd
  · rw [State.written, if_pos hw]
    refine State.computes_fetchNext (fun x hx => ?_)
      ((s.loadTail_frame ea w rn a _ (by simp)).writeReg hb rd v (by simp)) ?_ ?_ rfl ?_ ?_ ?_ ?_
    · simp only [List.mem_cons, List.not_mem_nil, or_false] at hx
      rcases hx with rfl | rfl
      · exact ⟨hd, State.readReg_writeReg_self _ _ hd⟩
      · exact ⟨hn hw.1, (State.readReg_writeReg_ne _ _ hw.2).trans (s.loadTail_base ea w _ a hw.1 (hn hw.1))⟩
    all_goals simp [State.loadTail, Nat.add_assoc]
  · rw [State.written, if_neg hw]
    refine State.computes_fetchNext (fun x hx => ?_)
      ((s.loadTail_frame ea w rn a _ fun h => ?_).writeReg hb rd v (by simp)) ?_ ?_ rfl ?_ ?_ ?_ ?_
    · rw [List.mem_singleton.1 hx]
      exact ⟨hd, State.readReg_writeReg_self _ _ hd⟩
    · simp only [h, true_and, not_not] at hw
      simp [hw]
    all_goals simp [State.loadTail, Nat.add_assoc]

/-- The end of a load of R15: the base written back, then the branch (R311). -/
theorem State.branches_load (s : State) (ea : Word) (w : Width) (rn : RegNum) (a : Address) (v : Word)
    (hn : a.wb = true → rn ≠ 15) :
    s.Branches (.next ((s.loadTail ea w rn a).branchTo v)) v (State.written rn a none) s.cpsr
      (s.params.cost ea w .data .nonSeq + 1) 0 := by
  have hb := s.loadTail_bank ea w rn a
  by_cases hw : a.wb = true
  · simp only [State.written, hw, if_true]
    refine State.branches_branchTo (fun x hx hx15 => ?_) (s.loadTail_frame ea w rn a _ (by simp)) ?_ ?_ ?_ ?_ ?_
    · rw [List.mem_singleton.1 hx]
      rw [← hb]
      exact s.loadTail_base ea w rn a hw (hn hw)
    all_goals simp [State.loadTail, Nat.add_assoc]
  · simp only [State.written, hw]
    refine State.branches_branchTo (by simp) (s.loadTail_frame ea w rn a _ fun h => absurd h hw) ?_ ?_ ?_ ?_ ?_
    all_goals simp [State.loadTail, Nat.add_assoc]

/-- What a write at the port leaves (R85, R86), where it leaves that memory. -/
theorem State.wrote_portStore {s t : State} {a v : Word} {w : Width} (h : t.mem = s.portStore a w v) :
    s.Wrote t a w v :=
  ⟨fun hd => by rw [h, State.portStore_taken hd, Mem.load_store_low], fun x hx => by
    rw [h, State.byteAt_portStore v hx]⟩

/-- The end of a store: the bytes in memory, then the base written back (R313). -/
theorem State.stores_storeTail (s : State) (ea : Word) (w : Width) (v : Word) (rn : RegNum) (a : Address)
    (hn : a.wb = true → rn ≠ 15) :
    s.Stores (.next (s.storeTail ea w v rn a)) ea w v (State.written rn a none) := by
  have f0 : ∀ rs, s.Frame (s.memWrite ea w v .nonSeq) rs := fun rs =>
    (State.Frame.refl s rs).congr rfl rfl rfl rfl rfl rfl
  refine ⟨_, rfl, State.wrote_portStore (by simp [State.storeTail]), fun x hx => ?_, by simp [State.storeTail], ?_,
    State.advanced_fetchNext _ (by simp) (by simp) (by simp) (by simp) (by simp), by simp [State.storeTail]⟩
  · by_cases hw : a.wb = true
    · simp only [State.written, hw, if_true, List.mem_singleton] at hx
      subst hx
      rw [State.storeTail, State.readReg_fetchNext _ _ (hn hw), State.writeBack, if_pos hw,
        State.readReg_writeReg_self _ _ (hn hw)]
    · simp [State.written, hw] at hx
  · refine State.Frame.fetchNext ?_ _
    by_cases hw : a.wb = true
    · simp only [State.written, State.writeBack, hw, if_true]
      exact (f0 _).writeReg rfl rn _ (by simp)
    · simp only [State.written, State.writeBack, hw]
      exact f0 _

end Sys2Proof.Machine
end

