-- ==== Sys2Proof/Laws/Block.lean ====
section
/-! SUPPORT. Block transfers (R350 to R352): what the list of transfers does to registers, memory and cycles. -/

namespace Sys2Proof.Machine

/-- Two states agree in all but registers, memory and cycles. -/
structure State.SameCore (s t : State) : Prop where
  pc : t.pc = s.pc
  cpsr : t.cpsr = s.cpsr
  spsrs : t.spsrs = s.spsrs
  decoded : t.decoded = s.decoded
  fetched : t.fetched = s.fetched
  total : t.totalCycles = s.totalCycles
  hook : t.hook = s.hook
  record : t.faultRecord = s.faultRecord
  params : t.params = s.params
  hazard : t.userBankHazard = s.userBankHazard
  draws : t.draws = s.draws

theorem State.SameCore.refl (s : State) : s.SameCore s := ⟨rfl, rfl, rfl, rfl, rfl, rfl, rfl, rfl, rfl, rfl, rfl⟩

theorem State.SameCore.trans {s t u : State} (h : s.SameCore t) (h' : t.SameCore u) : s.SameCore u :=
  ⟨h'.pc.trans h.pc, h'.cpsr.trans h.cpsr, h'.spsrs.trans h.spsrs, h'.decoded.trans h.decoded,
    h'.fetched.trans h.fetched, h'.total.trans h.total, h'.hook.trans h.hook, h'.record.trans h.record,
    h'.params.trans h.params, h'.hazard.trans h.hazard, h'.draws.trans h.draws⟩

theorem State.SameCore.memWrite (s : State) (a : Word) (w : Width) (v : Word) (q : Seq) :
    s.SameCore (s.memWrite a w v q) := ⟨rfl, rfl, rfl, rfl, rfl, rfl, rfl, rfl, rfl, rfl, rfl⟩

theorem State.SameCore.chargeData (s : State) (a : Word) (w : Width) (q : Seq) :
    s.SameCore (s.chargeData a w q) := ⟨rfl, rfl, rfl, rfl, rfl, rfl, rfl, rfl, rfl, rfl, rfl⟩

theorem State.SameCore.internal (s : State) (k : Nat) : s.SameCore (s.internal k) :=
  ⟨rfl, rfl, rfl, rfl, rfl, rfl, rfl, rfl, rfl, rfl, rfl⟩

theorem State.SameCore.writeBank (s : State) (b : Bank) (r : RegNum) (v : Word) : s.SameCore (s.writeBank b r v) := by
  constructor <;> simp

theorem State.SameCore.blockBase (s : State) (wb : Option (RegNum × Word)) : s.SameCore (s.blockBase wb) := by
  cases wb
  · exact .refl s
  · exact .writeBank s _ _ _

theorem State.SameCore.bank {s t : State} (h : s.SameCore t) : t.bank = s.bank :=
  State.bank_eq (congrArg Psr.m h.cpsr)

@[simp] theorem State.blockBase_mem (s : State) (wb : Option (RegNum × Word)) : (s.blockBase wb).mem = s.mem := by
  cases wb <;> simp [State.blockBase]

@[simp] theorem State.blockBase_cycles (s : State) (wb : Option (RegNum × Word)) :
    (s.blockBase wb).cycles = s.cycles := by
  cases wb <;> simp [State.blockBase]

theorem State.SameCore.storeList (ts : List (RegNum × Word)) (s : State) (b : Bank) (q : Seq)
    (wb : Option (RegNum × Word)) : s.SameCore (s.storeList b q wb ts) := by
  induction ts generalizing s q wb with
  | nil => exact .refl s
  | cons t ts ih => exact ((State.SameCore.memWrite s _ _ _ _).trans (.blockBase _ _)).trans (ih _ _ _)

theorem State.SameCore.loadList (ts : List (RegNum × Word)) (s : State) (b : Bank) (q : Seq)
    (wb : Option (RegNum × Word)) : s.SameCore (s.loadList b q wb ts) := by
  induction ts generalizing s q wb with
  | nil => exact .refl s
  | cons t ts ih =>
    exact (((State.SameCore.chargeData s _ _ _).trans (.blockBase _ _)).trans (.writeBank _ _ _ _)).trans (ih _ _ _)

/-! ## The addresses -/

theorem blockAddrs_length (n : Nat) (a : Word) : (blockAddrs n a).length = n := by
  induction n generalizing a with
  | zero => rfl
  | succ n ih => simp [blockAddrs, ih]

theorem blockAddr_zero (start : Word) : blockAddr start 0 = alignTo .word start := by
  simp [blockAddr]

theorem blockAddr_succ (start : Word) (k : Nat) : blockAddr (start + 4) k = blockAddr start (k + 1) := by
  have : start + 4 + 4 * BitVec.ofNat 32 k = start + 4 * BitVec.ofNat 32 (k + 1) := by
    rw [BitVec.ofNat_add, BitVec.mul_add, ← BitVec.add_assoc, BitVec.add_assoc start, BitVec.add_comm 4,
      ← BitVec.add_assoc]
    rfl
  rw [blockAddr, blockAddr, this]

/-- The k-th address lies 4k above the first, modulo 2^32 (R350, R100). -/
theorem blockAddr_toNat (start : Word) (k : Nat) :
    (blockAddr start k).toNat = ((alignTo .word start).toNat + 4 * k) % 2 ^ 32 := by
  have := start.isLt
  simp only [blockAddr, alignTo_toNat, Width.bytes, BitVec.toNat_add, BitVec.toNat_mul, BitVec.toNat_ofNat,
    show (4 : Word).toNat = 4 from rfl]
  omega

/-- Two words of one transfer do not overlap (R350): 16 words take 64 bytes. -/
theorem blockAddr_apart (start : Word) {i j : Nat} (hi : i < 16) (hj : j < 16) (h : i ≠ j) (d : Word)
    (hd : d.toNat < 4) : 4 ≤ (blockAddr start i + d - blockAddr start j).toNat := by
  rw [BitVec.toNat_sub, BitVec.toNat_add, blockAddr_toNat, blockAddr_toNat]
  omega

theorem State.blockCost_congr {s t : State} (h : t.params = s.params) (a : Word) (q : Seq) (n : Nat) :
    t.blockCost a q n = s.blockCost a q n := by
  induction n generalizing a q with
  | zero => rfl
  | succ n ih => simp [State.blockCost, h, ih]

/-! ## Stores -/

theorem State.storeList_cycles (rs : List RegNum) (s : State) (b : Bank) (q : Seq) (wb : Option (RegNum × Word))
    (start : Word) : (s.storeList b q wb (rs.zip (blockAddrs rs.length start))).cycles =
      s.cycles + s.blockCost start q rs.length := by
  induction rs generalizing s q wb start with
  | nil => rfl
  | cons r rs ih =>
    simp only [List.length_cons, blockAddrs, List.zip_cons_cons, State.storeList, ih, State.blockCost]
    rw [State.blockCost_congr (t := (s.memWrite _ _ _ _).blockBase wb)
      ((State.SameCore.memWrite s _ _ _ _).trans (.blockBase _ wb)).params]
    simp [Nat.add_assoc]

/-- The registers after the stores: those after the base write-back, which follows the first store (R351). -/
theorem State.storeList_regs (t : RegNum × Word) (ts : List (RegNum × Word)) (s : State) (b : Bank) (q : Seq)
    (wb : Option (RegNum × Word)) : (s.storeList b q wb (t :: ts)).regs = (s.blockBase wb).regs := by
  have none_regs : ∀ (ts : List (RegNum × Word)) (s : State) (q : Seq), (s.storeList b q none ts).regs = s.regs := by
    intro ts
    induction ts with
    | nil => intros; rfl
    | cons t ts ih => intros; simp [State.storeList, ih, State.blockBase]
  rw [State.storeList, none_regs]
  cases wb with
  | none => rfl
  | some p =>
    show ((s.memWrite _ _ _ _).writeBank s.bank p.1 p.2).regs = (s.writeBank s.bank p.1 p.2).regs
    unfold State.writeBank
    cases s.bank.reg p.1 <;> rfl

/-- Bytes outside the words of a block store are kept (R351). -/
theorem State.storeList_kept (rs : List RegNum) (s : State) (b : Bank) (q : Seq) (wb : Option (RegNum × Word))
    (start x : Word)
    (h : ∀ k, k < rs.length → s.params.drops (blockAddr start k) = false → 4 ≤ (x - blockAddr start k).toNat) :
    (s.storeList b q wb (rs.zip (blockAddrs rs.length start))).mem.byteAt x = s.mem.byteAt x := by
  induction rs generalizing s q wb start with
  | nil => rfl
  | cons r rs ih =>
    simp only [List.length_cons, blockAddrs, List.zip_cons_cons, State.storeList]
    rw [ih _ _ _ _ fun k hk hd => by
      rw [blockAddr_succ]
      rw [blockAddr_succ, (State.SameCore.blockBase _ wb).params] at hd
      exact h _ (by simpa using hk) hd]
    simp only [State.blockBase_mem, State.memWrite_mem]
    exact State.byteAt_portStore _ (by simpa [blockAddr_zero, Width.bytes] using h 0 (by simp))

/-- A word is its four bytes (R81). -/
theorem Mem.load_word_congr {m m' : Mem} {a : Word}
    (h : ∀ d : Word, d.toNat < 4 → m'.byteAt (a + d) = m.byteAt (a + d)) : m'.load a .word = m.load a .word := by
  have h0 : m'.byteAt a = m.byteAt a := by simpa using h 0 (by decide)
  simp only [Mem.load, h0, h 1 (by decide), h 2 (by decide), h 3 (by decide)]

/-- The k-th word of a block store: the first register's value from before the write-back, the others' from after it
(R351, R357). -/
theorem State.storeList_stored (rs : List RegNum) (s : State) (b : Bank) (q : Seq) (wb : Option (RegNum × Word))
    (start : Word) (hl : rs.length ≤ 16) (k : Nat) (r : RegNum) (hk : rs[k]? = some r)
    (hd : s.params.drops (blockAddr start k) = false) :
    (s.storeList b q wb (rs.zip (blockAddrs rs.length start))).mem.load (blockAddr start k) .word =
      if k = 0 then s.blockValue b r else (s.blockBase wb).blockValue b r := by
  induction rs generalizing s q wb start k with
  | nil => simp at hk
  | cons r0 rs ih =>
    have hl' : rs.length < 16 := by simpa using hl
    simp only [List.length_cons, blockAddrs, List.zip_cons_cons, State.storeList]
    cases k with
    | zero =>
      simp only [List.getElem?_cons_zero, Option.some.injEq] at hk
      subst hk
      rw [Mem.load_word_congr (m := s.mem.store (alignTo .word start) (s.blockValue b r0) .word), blockAddr_zero,
        (Mem.load_store _ _ _).2.2]
      · rfl
      · intro d hd4
        rw [State.storeList_kept]
        · rw [blockAddr_zero] at hd
          simp [State.portStore_taken hd]
        · intro j hj _
          rw [blockAddr_succ]
          exact blockAddr_apart start (by omega) (by omega) (by omega) d hd4
    | succ k =>
      simp only [List.getElem?_cons_succ] at hk
      rw [← blockAddr_succ, ih _ _ _ _ (by omega) _ hk (by
        rwa [blockAddr_succ, (State.SameCore.blockBase _ wb).params])]
      have hv : ∀ t : State, t.regs = (s.blockBase wb).regs → (s.blockBase wb).SameCore t →
          t.blockValue b r = (s.blockBase wb).blockValue b r := by
        intro t ht hs
        simp [State.blockValue, State.storedPc, State.instrAddr, hs.pc, hs.cpsr, hs.params, State.readBank, ht]
      have hr : ((s.memWrite (alignTo .word start) .word (s.blockValue b r0) q).blockBase wb).regs =
          (s.blockBase wb).regs := by
        have := State.storeList_regs (r0, start) [] s b q wb
        simpa [State.storeList] using this
      have hs : (s.blockBase wb).SameCore
          ((s.memWrite (alignTo .word start) .word (s.blockValue b r0) q).blockBase wb) := by
        have h1 := (State.SameCore.memWrite s (alignTo .word start) .word (s.blockValue b r0) q).trans (.blockBase _ wb)
        have h2 := State.SameCore.blockBase s wb
        exact ⟨h1.pc.trans h2.pc.symm, h1.cpsr.trans h2.cpsr.symm, h1.spsrs.trans h2.spsrs.symm,
          h1.decoded.trans h2.decoded.symm, h1.fetched.trans h2.fetched.symm, h1.total.trans h2.total.symm,
          h1.hook.trans h2.hook.symm, h1.record.trans h2.record.symm, h1.params.trans h2.params.symm,
          h1.hazard.trans h2.hazard.symm, h1.draws.trans h2.draws.symm⟩
      split
      · exact hv _ hr hs
      · exact hv _ hr hs

/-! ## Loads -/

@[simp] theorem State.loadList_mem (ts : List (RegNum × Word)) (s : State) (b : Bank) (q : Seq)
    (wb : Option (RegNum × Word)) : (s.loadList b q wb ts).mem = s.mem := by
  induction ts generalizing s q wb with
  | nil => rfl
  | cons t ts ih => simp [State.loadList, ih]

theorem State.loadList_cycles (rs : List RegNum) (s : State) (b : Bank) (q : Seq) (wb : Option (RegNum × Word))
    (start : Word) : (s.loadList b q wb (rs.zip (blockAddrs rs.length start))).cycles =
      s.cycles + s.blockCost start q rs.length := by
  induction rs generalizing s q wb start with
  | nil => rfl
  | cons r rs ih =>
    simp only [List.length_cons, blockAddrs, List.zip_cons_cons, State.loadList, ih, State.blockCost]
    rw [State.blockCost_congr (t := ((s.chargeData _ _ _).blockBase wb).writeBank b _ _)
      (((State.SameCore.chargeData s _ _ _).trans (.blockBase _ wb)).trans (.writeBank _ _ _ _)).params]
    simp [Nat.add_assoc]

/-- A physical register the list does not name is written by the base write-back alone (R352). -/
theorem State.loadList_other (rs : List RegNum) (s : State) (b : Bank) (q : Seq) (start : Word) (p : PhysReg)
    (h : ∀ r ∈ rs, b.reg r ≠ some p) :
    (s.loadList b q none (rs.zip (blockAddrs rs.length start))).regs.get p = s.regs.get p := by
  induction rs generalizing s q start with
  | nil => rfl
  | cons r rs ih =>
    simp only [List.length_cons, blockAddrs, List.zip_cons_cons, State.loadList]
    rw [ih _ _ _ fun x hx => h x (by simp [hx]), State.get_writeBank, if_neg (h r (by simp))]
    rfl

/-- The k-th register of the list holds the k-th word (R352). -/
theorem State.loadList_loaded (rs : List RegNum) (hnd : rs.Nodup) (s : State) (b : Bank) (q : Seq)
    (wb : Option (RegNum × Word)) (start : Word) (k : Nat) (r : RegNum) (hk : rs[k]? = some r) (hr : r ≠ 15) :
    (s.loadList b q wb (rs.zip (blockAddrs rs.length start))).readBank b r = s.memRead (blockAddr start k) .word := by
  obtain ⟨p, hp⟩ := Bank.reg_isSome b hr
  induction rs generalizing s q wb start k with
  | nil => simp at hk
  | cons r0 rs ih =>
    simp only [List.nodup_cons] at hnd
    simp only [List.length_cons, blockAddrs, List.zip_cons_cons, State.loadList]
    cases k with
    | zero =>
      simp only [List.getElem?_cons_zero, Option.some.injEq] at hk
      subst hk
      simp only [State.readBank, hp]
      rw [State.loadList_other]
      · rw [State.get_writeBank, if_pos hp, blockAddr_zero]
      · exact fun x hx e => hnd.1 (Bank.reg_injective b e hp ▸ hx)
    | succ k =>
      simp only [List.getElem?_cons_succ] at hk
      rw [ih hnd.2 _ _ _ _ _ hk, blockAddr_succ]
      have c := ((State.SameCore.chargeData s (alignTo .word start) .word q).trans (.blockBase _ wb)).trans
        (.writeBank _ b r0 (s.memRead (alignTo .word start) .word))
      exact State.portRead_congr (by simp) c.params c.draws _ _ _

/-- What the base write-back leaves for a register the list does not name (R352). -/
theorem State.loadList_unloaded (r0 : RegNum) (rs : List RegNum) (s : State) (b : Bank) (q : Seq)
    (wb : Option (RegNum × Word)) (start : Word) (p : PhysReg) (h : ∀ r ∈ r0 :: rs, b.reg r ≠ some p) :
    (s.loadList b q wb ((r0 :: rs).zip (blockAddrs (rs.length + 1) start))).regs.get p =
      (s.blockBase wb).regs.get p := by
  simp only [blockAddrs, List.zip_cons_cons, State.loadList]
  rw [State.loadList_other _ _ _ _ _ _ fun x hx => h x (by simp [hx]), State.get_writeBank, if_neg (h r0 (by simp))]
  cases wb with
  | none => rfl
  | some x =>
    show ((s.chargeData _ _ _).writeBank s.bank x.1 x.2).regs.get p = (s.writeBank s.bank x.1 x.2).regs.get p
    simp [State.get_writeBank]

/-! ## Register lists -/

theorem listRegs_nodup (rl : BitVec 16) : (listRegs rl).Nodup := by
  unfold listRegs
  exact List.Nodup.filter _ (by decide)

theorem listRegs_length (rl : BitVec 16) : (listRegs rl).length ≤ 16 := by
  unfold listRegs
  exact List.length_filter_le _ _

theorem mem_listRegs (rl : BitVec 16) (r : RegNum) : r ∈ listRegs rl ↔ rl.getLsbD r.toNat = true := by
  have all : ∀ r : RegNum, r ∈ ([0, 1, 2, 3, 4, 5, 6, 7, 8, 9, 10, 11, 12, 13, 14, 15] : List RegNum) := by decide
  simp only [listRegs, List.mem_filter, all r, true_and]

theorem listRegs_ne_nil {rl : BitVec 16} (h : rl ≠ 0) : listRegs rl ≠ [] := by
  intro e
  apply h
  apply BitVec.eq_of_getLsbD_eq
  intro k hk
  have := (mem_listRegs rl (BitVec.ofNat 4 k)).2
  rw [e, BitVec.toNat_ofNat, Nat.mod_eq_of_lt (by omega)] at this
  simpa using this

theorem blockRegs_nodup (rl : BitVec 16) : (blockRegs rl).Nodup := by
  unfold blockRegs
  split
  · simp
  · exact listRegs_nodup rl

theorem blockRegs_length (rl : BitVec 16) : (blockRegs rl).length ≤ 16 := by
  unfold blockRegs
  split
  · simp
  · exact listRegs_length rl

theorem blockRegs_ne_nil (rl : BitVec 16) : blockRegs rl ≠ [] := by
  unfold blockRegs
  split
  · simp
  · next h => exact listRegs_ne_nil h

theorem blockPairs_cons (rl : BitVec 16) (start : Word) : ∃ t ts, blockPairs rl start = t :: ts := by
  unfold blockPairs
  cases h : blockRegs rl with
  | nil => exact absurd h (blockRegs_ne_nil rl)
  | cons a l => exact ⟨_, _, rfl⟩

/-! ## Whole transfers -/

/-- A block store keeps every register but the base it writes back (R351). -/
theorem State.blockStore_frame (s : State) (b : Bank) (m : BlockMode) (w : Bool) (rn : RegNum) (rl : BitVec 16)
    (rs : List RegNum) (hw : w = true → rn ∈ rs) : s.Frame (s.blockStore b m w rn rl) rs := by
  obtain ⟨t, ts, e⟩ := blockPairs_cons rl (s.blockStart m rn rl)
  have c := State.SameCore.storeList (t :: ts) s b .nonSeq (s.blockWb m w rn rl)
  rw [State.blockStore, e]
  refine State.Frame.fetchNext ⟨fun p hp => ?_, c.spsrs, c.params, c.hook, c.record, c.total⟩ _
  rw [State.storeList_regs]
  cases w
  · rfl
  · simp only [State.blockWb, if_true, State.blockBase, State.writeReg, State.get_writeBank]
    rw [if_neg (hp rn (hw rfl))]

/-- The words of a block store, the first register's from before the write-back (R351). -/
theorem State.blockStore_stored (s : State) (b : Bank) (m : BlockMode) (w : Bool) (rn : RegNum) (rl : BitVec 16)
    (value : Nat → RegNum → Word)
    (hv : ∀ k r, (blockRegs rl)[k]? = some r → value k r =
      if k = 0 then s.blockValue b r else (s.blockBase (s.blockWb m w rn rl)).blockValue b r) :
    s.BlockStored (s.blockStore b m w rn rl) (s.blockStart m rn rl) (blockRegs rl) value :=
  ⟨fun k r hk hd => by
      rw [hv k r hk]
      exact State.storeList_stored (blockRegs rl) s b .nonSeq _ _ (blockRegs_length rl) k r hk hd,
    fun x hx => State.storeList_kept (blockRegs rl) s b .nonSeq _ _ x hx⟩

/-- A block store charges its words and ends with a non-sequential fetch (R351). -/
theorem State.blockStore_advanced (s : State) (b : Bank) (m : BlockMode) (w : Bool) (rn : RegNum) (rl : BitVec 16) :
    s.Advanced (s.blockStore b m w rn rl) .nonSeq
      (s.blockCost (s.blockStart m rn rl) .nonSeq (blockRegs rl).length) :=
  have c := State.SameCore.storeList (blockPairs rl (s.blockStart m rn rl)) s b .nonSeq (s.blockWb m w rn rl)
  State.advanced_fetchNext _ c.pc (congrArg Psr.t c.cpsr) c.decoded c.params (State.storeList_cycles _ _ _ _ _ _)

/-- The base after a block store with write-back (R351). -/
theorem State.blockStore_base (s : State) (b : Bank) (m : BlockMode) (rn : RegNum) (rl : BitVec 16) (hn : rn ≠ 15) :
    (s.blockStore b m true rn rl).readBank s.bank rn = m.newBase (s.readReg rn) (blockSpan rl) := by
  obtain ⟨t, ts, e⟩ := blockPairs_cons rl (s.blockStart m rn rl)
  have hr : (s.blockStore b m true rn rl).regs =
      (s.writeReg rn (m.newBase (s.readReg rn) (blockSpan rl))).regs := by
    rw [State.blockStore, e]
    exact State.storeList_regs _ _ _ _ _ _
  rw [State.readBank_congr hr _ hn, State.writeReg, State.readBank_writeBank, if_pos ⟨rfl, hn⟩]

/-- The registers a block load loads (R352). -/
theorem State.blockLoad_loaded (s : State) (b : Bank) (m : BlockMode) (w : Bool) (rn : RegNum) (rl : BitVec 16) :
    s.BlockLoaded (s.blockLoad b m w rn rl) b (s.blockStart m rn rl) (blockRegs rl) := fun k r hk hr =>
  State.loadList_loaded (blockRegs rl) (blockRegs_nodup rl) s b .nonSeq _ _ k r hk hr

/-- A physical register the list of a block load does not name: what the base write-back leaves in it (R352). -/
theorem State.blockLoad_other (s : State) (b : Bank) (m : BlockMode) (w : Bool) (rn : RegNum) (rl : BitVec 16)
    (p : PhysReg) (h : ∀ r ∈ blockRegs rl, b.reg r ≠ some p) :
    (s.blockLoad b m w rn rl).regs.get p = (s.blockBase (s.blockWb m w rn rl)).regs.get p := by
  cases hr : blockRegs rl with
  | nil => exact absurd hr (blockRegs_ne_nil rl)
  | cons r0 rs =>
    rw [hr] at h
    rw [State.blockLoad, blockPairs, hr]
    exact State.loadList_unloaded r0 rs s b _ _ _ p h

/-- A block load keeps all but registers and cycles (R352). -/
theorem State.blockLoad_core (s : State) (b : Bank) (m : BlockMode) (w : Bool) (rn : RegNum) (rl : BitVec 16) :
    s.SameCore (s.blockLoad b m w rn rl) :=
  (State.SameCore.loadList _ s b _ _).trans (.internal _ _)

@[simp] theorem State.blockLoad_mem (s : State) (b : Bank) (m : BlockMode) (w : Bool) (rn : RegNum)
    (rl : BitVec 16) : (s.blockLoad b m w rn rl).mem = s.mem := by
  simp [State.blockLoad]

/-- A block load charges its words and one internal cycle (R352). -/
theorem State.blockLoad_cycles (s : State) (b : Bank) (m : BlockMode) (w : Bool) (rn : RegNum) (rl : BitVec 16) :
    (s.blockLoad b m w rn rl).cycles =
      s.cycles + (s.blockCost (s.blockStart m rn rl) .nonSeq (blockRegs rl).length + 1) := by
  rw [State.blockLoad, State.internal_cycles, blockPairs, State.loadList_cycles, Nat.add_assoc]

/-- A block load in the current bank keeps every register but the list and the base it writes back (R352). -/
theorem State.blockLoad_frame (s : State) (m : BlockMode) (w : Bool) (rn : RegNum) (rl : BitVec 16)
    (rs : List RegNum) (hw : w = true → rn ∈ rs) (hrl : ∀ r ∈ blockRegs rl, r ∈ rs) :
    s.Frame (s.blockLoad s.bank m w rn rl) rs := by
  have c := s.blockLoad_core s.bank m w rn rl
  refine ⟨fun p hp => ?_, c.spsrs, c.params, c.hook, c.record, c.total⟩
  rw [State.blockLoad_other _ _ _ _ _ _ _ fun r hr => hp r (hrl r hr)]
  cases w
  · rfl
  · simp only [State.blockWb, if_true, State.blockBase, State.writeReg, State.get_writeBank]
    rw [if_neg (hp rn (hw rfl))]

/-- The base after a block load with write-back that does not load it (R352). -/
theorem State.blockLoad_base (s : State) (m : BlockMode) (w : Bool) (rn : RegNum) (rl : BitVec 16) (hn : rn ≠ 15) :
    s.BaseWritten (s.blockLoad s.bank m w rn rl) w rn (blockRegs rl) (m.newBase (s.readReg rn) (blockSpan rl)) := by
  rintro rfl hnl
  obtain ⟨p, hp⟩ := Bank.reg_isSome s.bank hn
  have hno : ∀ r ∈ blockRegs rl, s.bank.reg r ≠ some p := fun r hr e => hnl (Bank.reg_injective _ e hp ▸ hr)
  rw [State.readBank, hp]
  show (s.blockLoad s.bank m true rn rl).regs.get p = _
  rw [State.blockLoad_other _ _ _ _ _ _ _ hno]
  simp only [State.blockWb, if_true, State.blockBase, State.writeReg, State.get_writeBank, hp]

end Sys2Proof.Machine
end

