-- ==== Sys2Proof/Laws/Encoding.lean ====
section
/-! SUPPORT. The encoding: the codes of the small enumerations, the fields of an ARM word and the bytes of an opcode,
each read back as it was written. -/

namespace Sys2Proof

/-! ## The small enumerations -/

@[simp] theorem Cond.ofBits_bits (c : Cond) : Cond.ofBits c.bits = c := by cases c <;> rfl

@[simp] theorem Cond.bits_ofBits : ∀ b : BitVec 4, (Cond.ofBits b).bits = b := by decide

@[simp] theorem ShiftKind.ofBits_bits (k : ShiftKind) : ShiftKind.ofBits k.bits = k := by cases k <;> rfl

@[simp] theorem ShiftKind.bits_ofBits : ∀ b : BitVec 2, (ShiftKind.ofBits b).bits = b := by decide

@[simp] theorem DpOp.ofBits_bits (op : DpOp) : DpOp.ofBits op.bits = op := by cases op <;> rfl

@[simp] theorem DpOp.bits_ofBits : ∀ b : BitVec 4, (DpOp.ofBits b).bits = b := by decide

/-! ## Fields of a concatenation -/

/-- A field that lies in the low part of a concatenation. -/
theorem extract_append_low {n m : Nat} (x : BitVec n) (y : BitVec m) (s k : Nat) (h : s + k ≤ m) :
    (x ++ y).extractLsb' s k = y.extractLsb' s k := by
  apply BitVec.eq_of_getLsbD_eq
  intro j hj
  simp [BitVec.getLsbD_append, hj, show s + j < m by omega]

/-- A field that lies in the high part of a concatenation. -/
theorem extract_append_high {n m : Nat} (x : BitVec n) (y : BitVec m) (s k : Nat) (h : m ≤ s) :
    (x ++ y).extractLsb' s k = x.extractLsb' (s - m) k := by
  apply BitVec.eq_of_getLsbD_eq
  intro j hj
  simp [BitVec.getLsbD_append, hj, show ¬ s + j < m by omega, show s + j - m = s - m + j by omega]

/-- A field that is all of a value. -/
theorem extract_all {n : Nat} (x : BitVec n) : x.extractLsb' 0 n = x := by
  apply BitVec.eq_of_getLsbD_eq
  intro j hj
  simp [hj]

/-- Two fields side by side are one field. -/
theorem extract_join {n : Nat} (x : BitVec n) (s k l : Nat) :
    x.extractLsb' (s + l) k ++ x.extractLsb' s l = x.extractLsb' s (k + l) := by
  apply BitVec.eq_of_getLsbD_eq
  intro j hj
  simp only [BitVec.getLsbD_append, BitVec.getLsbD_extractLsb', hj, decide_true, Bool.true_and]
  split
  · simp_all
  · rename_i h
    simp [show j - l < k by omega, show s + l + (j - l) = s + j by omega]

/-- An 8-bit immediate from its two nibbles (R125). -/
theorem join_imm8 (x : Byte) : x.extractLsb' 4 4 ++ x.extractLsb' 0 4 = x :=
  (extract_join x 0 4 4).trans (extract_all x)

/-- A shift amount from its four high bits and its low bit (R126). -/
theorem join_shiftImm (x : BitVec 5) : x.extractLsb' 1 4 ++ x.extractLsb' 0 1 = x :=
  (extract_join x 0 4 1).trans (extract_all x)

/-- A 12-bit offset from its three nibbles (R133). -/
theorem join_offset12 (x : BitVec 12) : x.extractLsb' 8 4 ++ x.extractLsb' 4 4 ++ x.extractLsb' 0 4 = x := by
  have h1 : x.extractLsb' 8 4 ++ x.extractLsb' 4 4 = x.extractLsb' 4 8 := extract_join x 4 4 4
  have h2 : x.extractLsb' 4 8 ++ x.extractLsb' 0 4 = x.extractLsb' 0 12 := extract_join x 0 8 4
  rw [h1, h2, extract_all]

/-- A register list from its four nibbles (R135). -/
theorem join_list16 (x : BitVec 16) :
    x.extractLsb' 12 4 ++ x.extractLsb' 8 4 ++ x.extractLsb' 4 4 ++ x.extractLsb' 0 4 = x := by
  have h1 : x.extractLsb' 12 4 ++ x.extractLsb' 8 4 = x.extractLsb' 8 8 := extract_join x 8 4 4
  have h2 : x.extractLsb' 8 8 ++ x.extractLsb' 4 4 = x.extractLsb' 4 12 := extract_join x 4 8 4
  have h3 : x.extractLsb' 4 12 ++ x.extractLsb' 0 4 = x.extractLsb' 0 16 := extract_join x 0 12 4
  rw [h1, h2, h3, extract_all]

/-! ## The fields of an ARM word -/

/-- The fields of the word with given fields are those fields. -/
@[simp] theorem ArmFields.ofWord_toWord (f : ArmFields) : ArmFields.ofWord f.toWord = f := by
  obtain ⟨a, b, c, d, e, g, h⟩ := f
  have hh : (a ++ b ++ c ++ d ++ e ++ g ++ h).extractLsb' 0 4 = h :=
    (extract_append_low _ _ 0 4 (by decide)).trans (extract_all h)
  have hg : (a ++ b ++ c ++ d ++ e ++ g ++ h).extractLsb' 4 4 = g :=
    (extract_append_high _ _ 4 4 (by decide)).trans
      ((extract_append_low _ _ 0 4 (by decide)).trans (extract_all g))
  have he : (a ++ b ++ c ++ d ++ e ++ g ++ h).extractLsb' 8 4 = e :=
    (extract_append_high _ _ 8 4 (by decide)).trans ((extract_append_high _ _ 4 4 (by decide)).trans
      ((extract_append_low _ _ 0 4 (by decide)).trans (extract_all e)))
  have hd : (a ++ b ++ c ++ d ++ e ++ g ++ h).extractLsb' 12 4 = d :=
    (extract_append_high _ _ 12 4 (by decide)).trans ((extract_append_high _ _ 8 4 (by decide)).trans
      ((extract_append_high _ _ 4 4 (by decide)).trans
        ((extract_append_low _ _ 0 4 (by decide)).trans (extract_all d))))
  have hc : (a ++ b ++ c ++ d ++ e ++ g ++ h).extractLsb' 16 4 = c :=
    (extract_append_high _ _ 16 4 (by decide)).trans ((extract_append_high _ _ 12 4 (by decide)).trans
      ((extract_append_high _ _ 8 4 (by decide)).trans ((extract_append_high _ _ 4 4 (by decide)).trans
        ((extract_append_low _ _ 0 4 (by decide)).trans (extract_all c)))))
  have hb : (a ++ b ++ c ++ d ++ e ++ g ++ h).extractLsb' 20 8 = b :=
    (extract_append_high _ _ 20 8 (by decide)).trans ((extract_append_high _ _ 16 8 (by decide)).trans
      ((extract_append_high _ _ 12 8 (by decide)).trans ((extract_append_high _ _ 8 8 (by decide)).trans
        ((extract_append_high _ _ 4 8 (by decide)).trans
          ((extract_append_low _ _ 0 8 (by decide)).trans (extract_all b))))))
  have ha : (a ++ b ++ c ++ d ++ e ++ g ++ h).extractLsb' 28 4 = a :=
    (extract_append_high _ _ 28 4 (by decide)).trans ((extract_append_high _ _ 24 4 (by decide)).trans
      ((extract_append_high _ _ 20 4 (by decide)).trans ((extract_append_high _ _ 16 4 (by decide)).trans
        ((extract_append_high _ _ 12 4 (by decide)).trans
          ((extract_append_high _ _ 8 4 (by decide)).trans (extract_all a))))))
  simp only [ArmFields.toWord, ArmFields.ofWord]
  rw [ha, hb, hc, hd, he, hg, hh]

/-- The word with the fields of a word is that word. -/
@[simp] theorem ArmFields.toWord_ofWord (w : Word) : (ArmFields.ofWord w).toWord = w := by
  have h1 : w.extractLsb' 28 4 ++ w.extractLsb' 20 8 = w.extractLsb' 20 12 := extract_join w 20 4 8
  have h2 : w.extractLsb' 20 12 ++ w.extractLsb' 16 4 = w.extractLsb' 16 16 := extract_join w 16 12 4
  have h3 : w.extractLsb' 16 16 ++ w.extractLsb' 12 4 = w.extractLsb' 12 20 := extract_join w 12 16 4
  have h4 : w.extractLsb' 12 20 ++ w.extractLsb' 8 4 = w.extractLsb' 8 24 := extract_join w 8 20 4
  have h5 : w.extractLsb' 8 24 ++ w.extractLsb' 4 4 = w.extractLsb' 4 28 := extract_join w 4 24 4
  have h6 : w.extractLsb' 4 28 ++ w.extractLsb' 0 4 = w.extractLsb' 0 32 := extract_join w 0 28 4
  simp only [ArmFields.toWord, ArmFields.ofWord]
  rw [h1, h2, h3, h4, h5, h6, extract_all]

/-- The instruction of an opcode built from fields is the decoder's on those fields. -/
theorem decode_armWord (c : Cond) (row : BitVec 8) (rn rd rs col rm : BitVec 4) :
    (armWord c row rn rd rs col rm).decode =
      decodeArmFields { cond := c.bits, row := row, rn := rn, rd := rd, rs := rs, col := col, rm := rm } := by
  simp only [armWord, Opcode.decode, decodeArm, ArmFields.ofWord_toWord]

/-! ## The bytes of an opcode -/

/-- The decoder reads the bytes of an opcode as its instruction and leaves the rest. -/
theorem decodeBytes_bytes (o : Opcode) (rest : List Byte) :
    decodeBytes (match o with | .arm _ => false | .thumb _ => true) (o.bytes ++ rest) = .ok (o.decode, rest) := by
  cases o with
  | arm w =>
    have h1 : w.extractLsb' 24 8 ++ w.extractLsb' 16 8 = w.extractLsb' 16 16 := extract_join w 16 8 8
    have h2 : w.extractLsb' 16 16 ++ w.extractLsb' 8 8 = w.extractLsb' 8 24 := extract_join w 8 16 8
    have h3 : w.extractLsb' 8 24 ++ w.extractLsb' 0 8 = w.extractLsb' 0 32 := extract_join w 0 24 8
    simp only [Opcode.bytes, List.cons_append, List.nil_append, decodeBytes, Opcode.decode]
    rw [h1, h2, h3, extract_all]
  | thumb h =>
    have h1 : h.extractLsb' 8 8 ++ h.extractLsb' 0 8 = h.extractLsb' 0 16 := extract_join h 0 8 8
    simp only [Opcode.bytes, List.cons_append, List.nil_append, decodeBytes, Opcode.decode]
    rw [h1, extract_all]

end Sys2Proof
end

