-- ==== Sys2Proof/Laws/Exec.lean ====
section
/-! SUPPORT. `exec` on the forms of Machine/Forms.lean: every row of a form is one call of the shared operation. -/

namespace Sys2Proof.Machine

theorem exec_dp (o : Operand2) (op : DpOp) (c : Cond) (sf : Bool) (rn rd : RegNum) (s : State) :
    exec (o.instr op c sf rn rd) s =
      if op.isTest = true then s.dpTest c op rn rd o else s.dpWrite c op sf rn rd o := by
  cases o <;> cases op <;> rfl

theorem exec_load (o : Offset) (b : Bool) (c : Cond) (ix : Indexing) (u : Bool) (rn rd : RegNum) (s : State) :
    exec (o.loadInstr b c ix u rn rd) s = if b = true then s.ldrb c ix u rn rd o else s.ldr c ix u rn rd o := by
  cases o <;> cases ix <;> cases b <;> rfl

theorem exec_store (o : Offset) (b : Bool) (c : Cond) (ix : Indexing) (u : Bool) (rn rd : RegNum) (s : State) :
    exec (o.storeInstr b c ix u rn rd) s = if b = true then s.strb c ix u rn rd o else s.str c ix u rn rd o := by
  cases o <;> cases ix <;> cases b <;> rfl

/-- The SBZ field a halfword form has: the register form alone has one (R134, R164). -/
def HwOffset.sbz (o : HwOffset) (sbz : BitVec 4) : BitVec 4 :=
  match o with
  | .reg _ => sbz
  | .imm _ _ => 0

theorem exec_halfLoad (o : HwOffset) (h : HalfLoad) (c : Cond) (p u w : Bool) (rn rd sbz : RegNum) (s : State) :
    exec (o.loadInstr h c p u w rn rd sbz) s =
      match h with
      | .unsignedHalf => s.ldrh c p u w rn rd (o.sbz sbz) o
      | .signedByte => s.ldrsb c p u w rn rd (o.sbz sbz) o
      | .signedHalf => s.ldrsh c p u w rn rd (o.sbz sbz) o := by
  cases o <;> cases h <;> rfl

theorem exec_halfStore (o : HwOffset) (c : Cond) (p u w : Bool) (rn rd sbz : RegNum) (s : State) :
    exec (o.storeInstr c p u w rn rd sbz) s = s.strh c p u w rn rd (o.sbz sbz) o := by
  cases o <;> rfl

theorem exec_stm (m : BlockMode) (c : Cond) (w : Bool) (rn : RegNum) (rl : BitVec 16) (s : State) :
    exec (m.stm c w rn rl) s = s.stm c m w rn rl := by cases m <;> rfl

theorem exec_ldm (m : BlockMode) (c : Cond) (w : Bool) (rn : RegNum) (rl : BitVec 16) (s : State) :
    exec (m.ldm c w rn rl) s = s.ldm c m w rn rl := by cases m <;> rfl

theorem exec_stmUser (m : BlockMode) (c : Cond) (w : Bool) (rn : RegNum) (rl : BitVec 16) (s : State) :
    exec (m.stmUser c w rn rl) s = s.stmUser c m w rn rl := by cases m <;> rfl

theorem exec_ldmUser (m : BlockMode) (c : Cond) (w : Bool) (rn : RegNum) (rl : BitVec 15) (s : State) :
    exec (m.ldmUser c w rn rl) s = s.ldmUser c m w rn rl := by cases m <;> rfl

theorem exec_ldmRet (m : BlockMode) (c : Cond) (w : Bool) (rn : RegNum) (rl : BitVec 15) (s : State) :
    exec (m.ldmRet c w rn rl) s = s.ldmRet c m w rn rl := by cases m <;> rfl

theorem exec_thumbBranch {c : Cond} {off : Byte} {i : Instr} (h : thumbBranchInstr c off = some i) (s : State) :
    exec i s = s.thumbBranchCond c off := by
  cases c <;> simp only [thumbBranchInstr, Option.some.injEq, reduceCtorEq] at h <;> subst h <;> rfl

/-- An ARM instruction is its meaning under its condition (R186). -/
theorem exec_underCond {i : Instr} {c : Cond} (h : i.cond? = some c) (s : State) :
    ∃ r, exec i s = s.underCond c r := by
  cases i <;> first
    | (simp only [Instr.cond?, reduceCtorEq] at h; done)
    | (simp only [Instr.cond?, Option.some.injEq] at h; subst h; exact ⟨_, rfl⟩)

/-- A meaning under the condition of an instruction; THUMB instructions have none (R186, R500). -/
def State.underCond? (s : State) (c : Option Cond) (r : Result State) : Result State :=
  match c with
  | some c => s.underCond c r
  | none => r

theorem State.underCond?_of_passes {s : State} {c : Option Cond} (r : Result State)
    (h : ∀ x, c = some x → x.passes s.cpsr = true) : s.underCond? c r = r := by
  cases c with
  | none => rfl
  | some c => exact State.underCond_of_passes r (h c rfl)

/-- What an undefined encoding does: the trap, in ARM state under its condition (R394, R506). -/
theorem exec_undefined {i : Instr} (h : i.isUndefined = true) (s : State) :
    exec i s = s.underCond? i.cond? s.undefinedTrap := by
  cases i <;> first | (simp only [Instr.isUndefined, Bool.false_eq_true] at h; done) | rfl

theorem exec_coprocessor {i : Instr} (h : i.isCoprocessor = true) (s : State) :
    ∃ c, i.cond? = some c ∧ exec i s = s.coprocessor c := by
  cases i <;> first | (simp only [Instr.isCoprocessor, Bool.false_eq_true] at h; done) | exact ⟨_, rfl, rfl⟩

theorem exec_swi {i : Instr} (h : i.isSwi = true) (s : State) :
    exec i s = s.underCond? i.cond? s.softwareInterrupt := by
  cases i <;> first | (simp only [Instr.isSwi, Bool.false_eq_true] at h; done) | rfl

end Sys2Proof.Machine
end

