-- ==== Sys2Proof/Laws/Outcome.lean ====
section
/-! SUPPORT. What a step can do: every instruction that reaches a next state ends with a fetch, a branch or an
exception entry, from a state that kept what no instruction changes. One lemma for each shared operation. -/

namespace Sys2Proof.Machine

/-- Every next state of a result has a property. -/
def Leads (r : Result State) (P : State → Prop) : Prop := ∀ t, r = .next t → P t

theorem leads_next {P : State → Prop} {t : State} (h : P t) : Leads (.next t) P := fun _ e => by cases e; exact h

theorem leads_fault {P : State → Prop} (f : Fault) : Leads (.fault f) P := fun _ e => by cases e

theorem leads_guarded {P : State → Prop} {s : State} {ks : List Check} {r : Result State}
    (h : firstStop s.params.unpred ks = none → Leads r P) : Leads (s.guarded ks r) P := fun t e =>
  h (State.guarded_next.1 e).1 t (State.guarded_next.1 e).2

theorem leads_underCond {P : State → Prop} {s : State} {c : Cond} {r : Result State} (h : Leads r P)
    (hf : P (s.fetchNext .seq)) : Leads (s.underCond c r) P := fun t e => by
  rcases State.underCond_next e with ⟨-, e⟩ | ⟨-, rfl⟩
  · exact h t e
  · exact hf

/-- In the `fault` policy an instruction that goes on has none of its U-cases (R13). -/
theorem firstStop_fault {ks : List Check} (h : firstStop .fault ks = none) : ∀ k ∈ ks, k.holds = false := by
  intro k hk
  cases hh : k.holds
  · rfl
  · simpa using ((firstStop_eq_none _ _).1 h k hk hh).2

/-- A state before the end of an instruction, with what no instruction changes up to there. The hook is host code, so
what it leaves of modes and registers is excepted (R535). -/
structure State.Before (s u : State) : Prop where
  params : u.params = s.params
  hook : u.hook = s.hook
  record : u.faultRecord = s.faultRecord
  total : u.totalCycles = s.totalCycles
  draws : s.draws ≤ u.draws
  memWf : s.mem.wf = true → u.mem.wf = true
  legal : s.hook = none → s.modeLegal → u.modeLegal
  /-- In User mode the mode, I, F, the SPSRs and every banked register are kept, but where a policy case goes on. -/
  user : s.hook = none → s.params.unpred = .fault → s.cpsr.m = 0x10 →
    u.cpsr.m = 0x10 ∧ u.cpsr.i = s.cpsr.i ∧ u.cpsr.f = s.cpsr.f ∧ u.spsrs = s.spsrs ∧
      ∀ p : PhysReg, (∀ k, p ≠ .usr k) → u.regs.get p = s.regs.get p

/-- How an instruction ends: the next fetch, a branch, or an exception entry. -/
inductive State.Ends (s : State) : State → Prop
  | fetch (u : State) (q : Seq) (b : Bool) (h : s.Before u)
      (k : s.hook = none → u.pc = s.pc ∧ u.decoded = s.decoded ∧ u.cpsr.t = s.cpsr.t) :
      State.Ends s { u.fetchNext q with userBankHazard := b }
  | branch (u : State) (x : Word) (h : s.Before u) : State.Ends s (u.branchTo x)
  | enter (u : State) (k : ExceptionKind) (lr : Word) (h : s.Before u) (hk : k = .swi ∨ k = .undefined)
      (hc : s.hook = none → u.cpsr = s.cpsr) : State.Ends s (u.enterException k lr)

theorem State.Before.refl (s : State) : s.Before s :=
  ⟨rfl, rfl, rfl, rfl, Nat.le_refl _, id, fun _ => id, fun _ _ h => ⟨h, rfl, rfl, rfl, fun _ _ => rfl⟩⟩

/-- An update of flags, cycles and free values before the end. -/
theorem State.Before.congr {s u v : State} (h : s.Before u) (hr : v.regs = u.regs) (hm : v.cpsr.m = u.cpsr.m)
    (hi : v.cpsr.i = u.cpsr.i) (hf : v.cpsr.f = u.cpsr.f) (hs : v.spsrs = u.spsrs) (hp : v.params = u.params)
    (hh : v.hook = u.hook) (hrec : v.faultRecord = u.faultRecord) (ht : v.totalCycles = u.totalCycles)
    (hd : u.draws ≤ v.draws) (hmem : u.mem.wf = true → v.mem.wf = true) : s.Before v where
  params := hp.trans h.params
  hook := hh.trans h.hook
  record := hrec.trans h.record
  total := ht.trans h.total
  draws := Nat.le_trans h.draws hd
  memWf hw := hmem (h.memWf hw)
  legal h0 hl := by
    have := h.legal h0 hl
    unfold State.modeLegal Psr.mode at this ⊢
    rwa [hm]
  user h0 hp' hu := by
    obtain ⟨a, b, c, d, e⟩ := h.user h0 hp' hu
    exact ⟨hm.trans a, hi.trans b, hf.trans c, hs.trans d, fun p hp => by rw [hr]; exact e p hp⟩

/-- In User mode the registers the current bank shows are the User registers. -/
theorem Bank.usr_reg (r : RegNum) (p : PhysReg) (hp : ∀ k, p ≠ .usr k) : Bank.usr.reg r ≠ some p := by
  have : ∀ i : Fin 15, Bank.usr.phys i = .usr i := by decide
  unfold Bank.reg
  split
  · rw [this]
    intro e
    exact hp _ (Option.some.inj e).symm
  · simp

theorem State.bank_user {s : State} (h : s.cpsr.m = 0x10) : s.bank = .usr := by
  unfold State.bank Psr.mode Mode.ofBits
  rw [h]
  rfl

theorem State.hasSpsr_user {s : State} (h : s.cpsr.m = 0x10) : s.hasSpsr = false := by
  simp [State.hasSpsr, State.bank_user h]

/-- A write of a register of the current or of the User bank before the end. -/
theorem State.Before.writeBank {s u : State} (h : s.Before u) (b : Bank) (hb : b = u.bank ∨ b = .usr) (r : RegNum)
    (v : Word) : s.Before (u.writeBank b r v) where
  params := by simp [h.params]
  hook := by simp [h.hook]
  record := by simp [h.record]
  total := by simp [h.total]
  draws := by simp [h.draws]
  memWf hw := by simp [h.memWf hw]
  legal h0 hl := by simpa [State.modeLegal] using h.legal h0 hl
  user h0 hp hu := by
    obtain ⟨a, b', c, d, e⟩ := h.user h0 hp hu
    have : b = .usr := hb.elim (fun e => e.trans (State.bank_user a)) id
    subst this
    refine ⟨by simpa using a, by simpa using b', by simpa using c, by simpa using d, fun p hp => ?_⟩
    rw [State.get_writeBank, if_neg (Bank.usr_reg r p hp)]
    exact e p hp

theorem State.Before.writeReg {s u : State} (h : s.Before u) (r : RegNum) (v : Word) : s.Before (u.writeReg r v) :=
  h.writeBank _ (.inl rfl) r v

theorem State.Before.writeBack {s u : State} (h : s.Before u) (r : RegNum) (a : Address) :
    s.Before (u.writeBack r a) := by
  unfold State.writeBack
  split
  · exact h.writeReg r _
  · exact h

theorem State.Before.internal {s u : State} (h : s.Before u) (k : Nat) : s.Before (u.internal k) :=
  h.congr rfl rfl rfl rfl rfl rfl rfl rfl rfl (Nat.le_refl _) id

theorem State.Before.chargeData {s u : State} (h : s.Before u) (a : Word) (w : Width) (q : Seq) :
    s.Before (u.chargeData a w q) := h.congr rfl rfl rfl rfl rfl rfl rfl rfl rfl (Nat.le_refl _) id

theorem State.Before.memWrite {s u : State} (h : s.Before u) (a : Word) (w : Width) (v : Word) (q : Seq) :
    s.Before (u.memWrite a w v q) :=
  h.congr rfl rfl rfl rfl rfl rfl rfl rfl rfl (Nat.le_refl _) (State.wf_portStore _ _ _)

theorem State.Before.blockBase {s u : State} (h : s.Before u) (wb : Option (RegNum × Word)) :
    s.Before (u.blockBase wb) := by
  cases wb
  · exact h
  · exact h.writeReg _ _

theorem State.Before.storeList {s u : State} (h : s.Before u) (b : Bank) (q : Seq) (wb : Option (RegNum × Word))
    (ts : List (RegNum × Word)) : s.Before (u.storeList b q wb ts) := by
  induction ts generalizing u q wb with
  | nil => exact h
  | cons t ts ih => exact ih ((h.memWrite _ _ _ _).blockBase wb) _ _

theorem State.Before.loadList {s u : State} (h : s.Before u) (b : Bank) (hb : b = u.bank ∨ b = .usr) (q : Seq)
    (wb : Option (RegNum × Word)) (ts : List (RegNum × Word)) : s.Before (u.loadList b q wb ts) := by
  induction ts generalizing u q wb with
  | nil => exact h
  | cons t ts ih =>
    have hb' : b = ((u.chargeData (alignTo .word t.2) .word q).blockBase wb).bank ∨ b = .usr :=
      hb.imp_left fun e => e.trans (State.SameCore.bank
        ((State.SameCore.chargeData u _ _ _).trans (.blockBase _ wb))).symm
    refine ih (((h.chargeData _ _ _).blockBase wb).writeBank b hb' _ _) ?_ _ _
    exact hb'.imp_left fun e => e.trans (State.SameCore.bank (.writeBank _ _ _ _)).symm

/-! ## The ends -/

/-- The next fetch from a state that kept the pipeline. -/
theorem State.Before.ends {s u : State} (h : s.Before u) (q : Seq) (hpc : u.pc = s.pc)
    (hd : u.decoded = s.decoded) (ht : u.cpsr.t = s.cpsr.t) : s.Ends (u.fetchNext q) :=
  .fetch u q false h fun _ => ⟨hpc, hd, ht⟩

theorem State.ends_refl (s : State) (q : Seq) : s.Ends (s.fetchNext q) := (State.Before.refl s).ends q rfl rfl rfl

theorem writePc_ends {s u : State} (h : s.Before u) (x : Word) : Leads (s.writePc u x) s.Ends :=
  leads_guarded fun _ => leads_next (.branch u x h)

theorem exceptionReturn_ends {s u : State} (h : s.Before u) (x : Word) : Leads (s.exceptionReturn u x) s.Ends := by
  refine leads_guarded fun hg => leads_next (.branch _ x ?_)
  have hm : s.restoredPsr.mode.isSome = true := by
    have := (firstStop_eq_none _ _).1 hg ⟨.u2, true, s.restoredPsr.mode.isNone⟩ (by simp)
    cases hs : s.restoredPsr.mode <;> simp_all
  refine ⟨h.params, h.hook, h.record, h.total, Nat.le_trans h.draws (Nat.le_add_right _ _), h.memWf,
    fun _ _ => hm, fun _ hp hu => ?_⟩
  rw [hp] at hg
  have := firstStop_fault hg ⟨.u3, false, !s.hasSpsr⟩ (by simp)
  simp [State.hasSpsr_user hu] at this

/-- An exception raised by an instruction: an entry, or what a hook makes of it (R533, R535). -/
theorem raise_ends {s u : State} (h : s.Before u) (k : ExceptionKind) (lr : Word) (hk : k = .swi ∨ k = .undefined)
    (hc : u.cpsr = s.cpsr) : Leads (u.raise k lr) s.Ends := by
  unfold State.raise
  cases hh : u.hook with
  | none => exact leads_guarded fun _ => leads_next (.enter u k lr h hk fun _ => hc)
  | some id =>
    have hs : s.hook ≠ none := by rw [← h.hook, hh]; simp
    have hb : s.Before (u.afterHook (Config.hookResult id k lr u)) :=
      ⟨h.params, h.hook, h.record, h.total, Nat.le_succ_of_le h.draws,
        fun hw => Mem.wf_setBytes _ _ (h.memWf hw), fun e => absurd e hs, fun e => absurd e hs⟩
    simp only
    split
    · exact leads_next (.fetch _ .seq false hb fun e => absurd e hs)
    · exact leads_guarded fun _ => leads_next (.enter _ k lr hb hk fun e => absurd e hs)

theorem undefinedTrap_ends (s : State) : Leads s.undefinedTrap s.Ends :=
  raise_ends ((State.Before.refl s).internal 1) _ _ (.inr rfl) rfl

theorem softwareInterrupt_ends (s : State) : Leads s.softwareInterrupt s.Ends :=
  raise_ends (State.Before.refl s) _ _ (.inl rfl) rfl

/-! ## ARM data processing, PSR transfer and multiply -/

theorem dpWrite_ends (s : State) (c : Cond) (op : DpOp) (sf : Bool) (rn rd : RegNum) (o : Operand2) :
    Leads (s.dpWrite c op sf rn rd o) s.Ends := by
  refine leads_underCond (leads_guarded fun _ => ?_) (s.ends_refl _)
  have hi := (State.Before.refl s).internal o.internalCycles
  split
  · split
    · exact exceptionReturn_ends hi _
    · exact writePc_ends hi _
  · refine leads_next ?_
    have hf : s.Before (if sf = true then (s.internal o.internalCycles).setFlags (s.dpOut op rn o)
        else s.internal o.internalCycles) := by
      split
      · exact hi.congr rfl rfl rfl rfl rfl rfl rfl rfl rfl (Nat.le_refl _) id
      · exact hi
    refine (hf.writeReg rd _).ends _ ?_ ?_ ?_ <;> cases sf <;> simp

theorem dpTest_ends (s : State) (c : Cond) (op : DpOp) (rn sbz : RegNum) (o : Operand2) :
    Leads (s.dpTest c op rn sbz o) s.Ends := by
  refine leads_underCond (leads_guarded fun _ => leads_next ?_) (s.ends_refl _)
  exact (((State.Before.refl s).internal o.internalCycles).congr
    (v := (s.internal o.internalCycles).setFlags (s.dpOut op rn o)) rfl rfl rfl rfl rfl rfl rfl rfl rfl
    (Nat.le_refl _) id).ends _ rfl rfl rfl

theorem moveFromPsr_ends (s : State) (c : Cond) (r : Bool) (sbo : BitVec 4) (rd : RegNum) (sbzHi sbzLo : BitVec 4) :
    Leads (s.moveFromPsr c r sbo rd sbzHi sbzLo) s.Ends := by
  refine leads_underCond (leads_guarded fun _ => leads_next ?_) (s.ends_refl _)
  have h : s.Before (s.afterDraws (s.psrDraws r)) :=
    (State.Before.refl s).congr rfl rfl rfl rfl rfl rfl rfl rfl rfl (Nat.le_add_right _ _) id
  exact (h.writeReg rd _).ends _ (by simp) (by simp) (by simp)

/-- Of the CPSR, an MSR in User mode changes only the flags byte (R283). -/
theorem State.msrCpsr_user {s : State} (h : s.cpsr.m = 0x10) (mask : BitVec 4) (v : Word) :
    (s.msrCpsr mask v).m = s.cpsr.m ∧ (s.msrCpsr mask v).i = s.cpsr.i ∧ (s.msrCpsr mask v).f = s.cpsr.f := by
  have hb : ∀ k, k < 24 → (s.cpsrByteMask mask).getLsbD k = false := by
    intro k hk
    have hm : ∀ k, k < 24 → (0xFF000000 : Word).getLsbD k = false := by decide
    simp only [State.cpsrByteMask, h, Mode.bits, if_true, BitVec.getLsbD_and, hm k hk, Bool.and_false]
  have hw : ∀ k, k < 24 →
      ((s.cpsr.toWord &&& ~~~(s.cpsrByteMask mask)) ||| (v &&& s.cpsrByteMask mask)).getLsbD k =
        s.cpsr.toWord.getLsbD k := by
    intro k hk
    simp only [BitVec.getLsbD_or, BitVec.getLsbD_and, BitVec.getLsbD_not, hb k hk, show k < 32 by omega]
    simp
  refine ⟨?_, ?_, ?_⟩
  · apply BitVec.eq_of_getLsbD_eq
    intro k hk
    have := hw k (by omega)
    rw [Psr.toWord_getLsbD, if_pos hk] at this
    rw [← this]
    simp [State.msrCpsr, Psr.merge, Psr.ofWord, hk]
  · have := hw 7 (by omega)
    rw [Psr.toWord_getLsbD] at this
    simpa [State.msrCpsr, Psr.merge, Psr.ofWord] using this
  · have := hw 6 (by omega)
    rw [Psr.toWord_getLsbD] at this
    simpa [State.msrCpsr, Psr.merge, Psr.ofWord] using this

theorem moveToPsr_ends (s : State) (c : Cond) (r : Bool) (mask : BitVec 4) (v : Word) (ks : List Check) :
    Leads (s.moveToPsr c r mask v ks) s.Ends := by
  refine leads_underCond (leads_guarded fun hg => leads_next ?_) (s.ends_refl _)
  rw [firstStop_eq_none] at hg
  cases r with
  | true =>
    refine State.Before.ends (s := s) (u := s.msrWrite true mask v)
      ⟨rfl, rfl, rfl, rfl, Nat.le_refl _, id, fun _ => id, fun _ hp hu => ?_⟩ _ rfl rfl rfl
    have := hg ⟨.u3, false, !s.hasSpsr⟩ (by simp [State.msrChecks])
    simp [State.hasSpsr_user hu, hp] at this
  | false =>
    have h18 := hg ⟨.u18, true, (s.msrCpsr mask v).t != s.cpsr.t⟩ (by simp [State.msrChecks])
    have h2 := hg ⟨.u2, true, (s.msrCpsr mask v).mode.isNone⟩ (by simp [State.msrChecks])
    have hm : (s.msrCpsr mask v).mode.isSome = true := by
      cases h : (s.msrCpsr mask v).mode <;> simp_all
    refine State.Before.ends (s := s) (u := s.msrWrite false mask v)
      ⟨rfl, rfl, rfl, rfl, Nat.le_refl _, id, fun _ _ => hm, fun _ hp hu => ?_⟩ _ rfl rfl ?_
    · have := State.msrCpsr_user hu mask v
      exact ⟨this.1.trans hu, this.2.1, this.2.2, rfl, fun _ _ => rfl⟩
    · show (s.msrCpsr mask v).t = s.cpsr.t
      by_contra h
      simp [h] at h18

theorem multiply_ends (s : State) (c : Cond) (ks : List Check) (named : List RegNum) (sf : Bool) (rd rm : RegNum)
    (res : Word) (k : Nat) : Leads (s.multiply c ks named sf rd rm res k) s.Ends := by
  refine leads_underCond (leads_guarded fun _ => leads_next ?_) (s.ends_refl _)
  have hi := (State.Before.refl s).internal k
  have hf : s.Before (if sf = true then (s.internal k).setMulFlags res else s.internal k) := by
    split
    · exact hi.congr rfl rfl rfl rfl rfl rfl rfl rfl rfl (by simp) id
    · exact hi
  refine (hf.writeReg rd _).ends _ ?_ ?_ ?_ <;> cases sf <;> simp

theorem multiplyLong_ends (s : State) (c : Cond) (sf : Bool) (rdHi rdLo rs rm : RegNum) (res : BitVec 64) (k : Nat) :
    Leads (s.multiplyLong c sf rdHi rdLo rs rm res k) s.Ends := by
  refine leads_underCond (leads_guarded fun _ => leads_next ?_) (s.ends_refl _)
  have hi := (State.Before.refl s).internal k
  have hf : s.Before (if sf = true then (s.internal k).setLongMulFlags res else s.internal k) := by
    split
    · exact hi.congr rfl rfl rfl rfl rfl rfl rfl rfl rfl (by simp) id
    · exact hi
  refine ((hf.writeReg rdLo _).writeReg rdHi _).ends _ ?_ ?_ ?_ <;> cases sf <;> simp

/-! ## ARM loads, stores and block transfers -/

theorem State.Before.loadTail (s : State) (ea : Word) (w : Width) (rn : RegNum) (a : Address) :
    s.Before (s.loadTail ea w rn a) := (((State.Before.refl s).chargeData _ _ _).internal 1).writeBack rn a

theorem loadTail_ends (s : State) (ea : Word) (w : Width) (rn rd : RegNum) (a : Address) (v : Word) :
    s.Ends (((s.loadTail ea w rn a).writeReg rd v).fetchNext .seq) :=
  ((State.Before.loadTail s ea w rn a).writeReg rd v).ends _ (by simp [State.loadTail]) (by simp [State.loadTail])
    (by simp [State.loadTail])

theorem storeTail_ends (s : State) (ea : Word) (w : Width) (v : Word) (rn : RegNum) (a : Address) :
    s.Ends (s.storeTail ea w v rn a) :=
  (((State.Before.refl s).memWrite ea w v .nonSeq).writeBack rn a).ends _ (by simp) (by simp) (by simp)

theorem ldr_ends (s : State) (c : Cond) (ix : Indexing) (u : Bool) (rn rd : RegNum) (o : Offset) :
    Leads (s.ldr c ix u rn rd o) s.Ends := by
  refine leads_underCond (leads_guarded fun _ => ?_) (s.ends_refl _)
  split
  · exact writePc_ends (State.Before.loadTail s _ _ _ _) _
  · exact leads_next (loadTail_ends s _ _ _ _ _ _)

theorem ldrb_ends (s : State) (c : Cond) (ix : Indexing) (u : Bool) (rn rd : RegNum) (o : Offset) :
    Leads (s.ldrb c ix u rn rd o) s.Ends :=
  leads_underCond (leads_guarded fun _ => leads_next (loadTail_ends s _ _ _ _ _ _)) (s.ends_refl _)

theorem str_ends (s : State) (c : Cond) (ix : Indexing) (u : Bool) (rn rd : RegNum) (o : Offset) :
    Leads (s.str c ix u rn rd o) s.Ends :=
  leads_underCond (leads_guarded fun _ => leads_next (storeTail_ends s _ _ _ _ _)) (s.ends_refl _)

theorem strb_ends (s : State) (c : Cond) (ix : Indexing) (u : Bool) (rn rd : RegNum) (o : Offset) :
    Leads (s.strb c ix u rn rd o) s.Ends :=
  leads_underCond (leads_guarded fun _ => leads_next (storeTail_ends s _ _ _ _ _)) (s.ends_refl _)

theorem hwLoad_ends (s : State) (c : Cond) (p u w : Bool) (rn rd : RegNum) (sbz : BitVec 4) (o : HwOffset)
    (ea : Word) (wd : Width) (data : Word) (ks : List Check) :
    Leads (s.hwLoad c p u w rn rd sbz o ea wd data ks) s.Ends :=
  leads_underCond (leads_guarded fun _ => leads_next (loadTail_ends s _ _ _ _ _ _)) (s.ends_refl _)

theorem strh_ends (s : State) (c : Cond) (p u w : Bool) (rn rd : RegNum) (sbz : BitVec 4) (o : HwOffset) :
    Leads (s.strh c p u w rn rd sbz o) s.Ends :=
  leads_underCond (leads_guarded fun _ => leads_next (storeTail_ends s _ _ _ _ _)) (s.ends_refl _)

theorem reservedHalfword_ends (s : State) (c : Cond) : Leads (s.reservedHalfword c) s.Ends :=
  leads_underCond (leads_fault _) (s.ends_refl _)

theorem swap_ends (s : State) (c : Cond) (rn rd sbz rm : RegNum) (ea : Word) (w : Width) (old : Word)
    (ks : List Check) : Leads (s.swap c rn rd sbz rm ea w old ks) s.Ends :=
  leads_underCond (leads_guarded fun _ => leads_next
    (((((State.Before.refl s).chargeData ea w .nonSeq).memWrite ea w (s.readReg rm) .nonSeq).internal 1).writeReg rd
      old |>.ends _ (by simp) (by simp) (by simp))) (s.ends_refl _)

theorem blockStore_ends (s : State) (b : Bank) (m : BlockMode) (w : Bool) (rn : RegNum) (rl : BitVec 16) :
    s.Ends (s.blockStore b m w rn rl) :=
  have c := State.SameCore.storeList (blockPairs rl (s.blockStart m rn rl)) s b .nonSeq (s.blockWb m w rn rl)
  ((State.Before.refl s).storeList b .nonSeq _ _).ends _ c.pc c.decoded (congrArg Psr.t c.cpsr)

theorem State.Before.blockLoad (s : State) (b : Bank) (hb : b = s.bank ∨ b = .usr) (m : BlockMode) (w : Bool)
    (rn : RegNum) (rl : BitVec 16) : s.Before (s.blockLoad b m w rn rl) :=
  ((State.Before.refl s).loadList b hb .nonSeq _ _).internal 1

theorem blockLoad_ends (s : State) (b : Bank) (hb : b = s.bank ∨ b = .usr) (m : BlockMode) (w : Bool)
    (rn : RegNum) (rl : BitVec 16) : s.Ends ((s.blockLoad b m w rn rl).fetchNext .seq) :=
  have c := s.blockLoad_core b m w rn rl
  (State.Before.blockLoad s b hb m w rn rl).ends _ c.pc c.decoded (congrArg Psr.t c.cpsr)

theorem stm_ends (s : State) (c : Cond) (m : BlockMode) (w : Bool) (rn : RegNum) (rl : BitVec 16) :
    Leads (s.stm c m w rn rl) s.Ends :=
  leads_underCond (leads_guarded fun _ => leads_next (blockStore_ends s _ _ _ _ _)) (s.ends_refl _)

theorem stmUser_ends (s : State) (c : Cond) (m : BlockMode) (w : Bool) (rn : RegNum) (rl : BitVec 16) :
    Leads (s.stmUser c m w rn rl) s.Ends :=
  leads_underCond (leads_guarded fun _ => leads_next (blockStore_ends s _ _ _ _ _)) (s.ends_refl _)

theorem ldm_ends (s : State) (c : Cond) (m : BlockMode) (w : Bool) (rn : RegNum) (rl : BitVec 16) :
    Leads (s.ldm c m w rn rl) s.Ends := by
  refine leads_underCond (leads_guarded fun _ => ?_) (s.ends_refl _)
  split
  · exact writePc_ends (State.Before.blockLoad s _ (.inl rfl) _ _ _ _) _
  · exact leads_next (blockLoad_ends s _ (.inl rfl) _ _ _ _)

theorem ldmUser_ends (s : State) (c : Cond) (m : BlockMode) (w : Bool) (rn : RegNum) (rl : BitVec 15) :
    Leads (s.ldmUser c m w rn rl) s.Ends := by
  refine leads_underCond (leads_guarded fun _ => ?_) (s.ends_refl _)
  have h := State.Before.blockLoad s .usr (.inr rfl) m false rn (rl.setWidth 16)
  have co := s.blockLoad_core .usr m false rn (rl.setWidth 16)
  split
  · exact writePc_ends h _
  · exact leads_next (.fetch _ .seq true h fun _ => ⟨co.pc, co.decoded, congrArg Psr.t co.cpsr⟩)

theorem ldmRet_ends (s : State) (c : Cond) (m : BlockMode) (w : Bool) (rn : RegNum) (rl : BitVec 15) :
    Leads (s.ldmRet c m w rn rl) s.Ends :=
  leads_underCond (leads_guarded fun _ => exceptionReturn_ends (State.Before.blockLoad s _ (.inl rfl) _ _ _ _) _)
    (s.ends_refl _)

/-! ## ARM branches and system instructions -/

theorem branch_ends (s : State) (c : Cond) (off : BitVec 24) : Leads (s.branch c off) s.Ends :=
  leads_underCond (leads_next (.branch s _ (.refl s))) (s.ends_refl _)

theorem branchLink_ends (s : State) (c : Cond) (off : BitVec 24) : Leads (s.branchLink c off) s.Ends :=
  leads_underCond (leads_guarded fun _ => leads_next (.branch _ _ ((State.Before.refl s).writeReg _ _)))
    (s.ends_refl _)

theorem exchange_ends (s : State) (t : Word) : s.Ends (s.exchange t) :=
  .branch _ t ((State.Before.refl s).congr rfl rfl rfl rfl rfl rfl rfl rfl rfl (Nat.le_refl _) id)

theorem branchExchange_ends (s : State) (c : Cond) (sbo : BitVec 12) (rm : RegNum) :
    Leads (s.branchExchange c sbo rm) s.Ends :=
  leads_underCond (leads_guarded fun _ => leads_next (exchange_ends s _)) (s.ends_refl _)

theorem coprocessor_ends (s : State) (c : Cond) : Leads (s.coprocessor c) s.Ends := by
  refine leads_underCond ?_ (s.ends_refl _)
  split
  · exact undefinedTrap_ends s
  · exact leads_fault _

theorem undefined_ends (s : State) (c : Cond) : Leads (s.underCond c s.undefinedTrap) s.Ends :=
  leads_underCond (undefinedTrap_ends s) (s.ends_refl _)

theorem swi_ends (s : State) (c : Cond) : Leads (s.underCond c s.softwareInterrupt) s.Ends :=
  leads_underCond (softwareInterrupt_ends s) (s.ends_refl _)

/-! ## THUMB -/

theorem putLow_ends {s u : State} (h : s.Before u) (hpc : u.pc = s.pc) (hd : u.decoded = s.decoded)
    (ht : u.cpsr.t = s.cpsr.t) (rd : LowReg) (v : Word) : Leads (u.putLow rd v) s.Ends :=
  leads_next ((h.writeReg _ v).ends _ (by simp [hpc]) (by simp [hd]) (by simp [ht]))

theorem State.Before.flags {s u : State} (h : s.Before u) (res : Word) (c v : Bool) :
    s.Before { u with cpsr := u.cpsr.withFlags res c v } :=
  h.congr rfl rfl rfl rfl rfl rfl rfl rfl rfl (Nat.le_refl _) id

theorem thumbShiftImm_ends (s : State) (k : ShiftKind) (off : BitVec 5) (rs rd : LowReg) :
    Leads (s.thumbShiftImm k off rs rd) s.Ends := putLow_ends ((State.Before.refl s).flags _ _ _) rfl rfl rfl _ _

theorem thumbShiftReg_ends (s : State) (k : ShiftKind) (rs rd : LowReg) :
    Leads (s.thumbShiftReg k rs rd) s.Ends :=
  putLow_ends (((State.Before.refl s).internal 1).flags _ _ _) rfl rfl rfl _ _

theorem thumbArith_ends (s : State) (rd : LowReg) (o : AluOut) : Leads (s.thumbArith rd o) s.Ends :=
  putLow_ends ((State.Before.refl s).flags _ _ _) rfl rfl rfl _ _

theorem thumbLogic_ends (s : State) (rd : LowReg) (res : Word) : Leads (s.thumbLogic rd res) s.Ends :=
  putLow_ends ((State.Before.refl s).flags _ _ _) rfl rfl rfl _ _

theorem thumbCompare_ends (s : State) (o : AluOut) : Leads (s.thumbCompare o) s.Ends :=
  leads_next (((State.Before.refl s).flags _ _ _).ends _ rfl rfl rfl)

theorem thumbTest_ends (s : State) (res : Word) : Leads (s.thumbTest res) s.Ends :=
  leads_next (((State.Before.refl s).flags _ _ _).ends _ rfl rfl rfl)

theorem thumbMul_ends (s : State) (rs rd : LowReg) : Leads (s.thumbMul rs rd) s.Ends :=
  putLow_ends (((State.Before.refl s).internal (mulCycles (s.low rd))).congr
    (v := (s.internal (mulCycles (s.low rd))).setMulFlags (s.low rs * s.low rd)) rfl rfl rfl rfl rfl rfl rfl rfl rfl
    (by simp) id) rfl rfl rfl _ _

theorem putHi_ends (s : State) (hd : RegNum) (res : Word) : s.Ends (s.putHi hd res) := by
  unfold State.putHi
  split
  · exact .branch s res (.refl s)
  · exact ((State.Before.refl s).writeReg _ _).ends _ (by simp) (by simp) (by simp)

theorem thumbAddHi_ends (s : State) (h1 h2 : Bool) (rs rd : LowReg) : Leads (s.thumbAddHi h1 h2 rs rd) s.Ends :=
  leads_guarded fun _ => leads_next (putHi_ends s _ _)

theorem thumbCmpHi_ends (s : State) (h1 h2 : Bool) (rs rd : LowReg) : Leads (s.thumbCmpHi h1 h2 rs rd) s.Ends :=
  leads_guarded fun _ => leads_next (((State.Before.refl s).flags _ _ _).ends _ rfl rfl rfl)

theorem thumbMovHi_ends (s : State) (h1 h2 : Bool) (rs rd : LowReg) : Leads (s.thumbMovHi h1 h2 rs rd) s.Ends :=
  leads_guarded fun _ => leads_next (putHi_ends s _ _)

theorem thumbAddPc_ends (s : State) (rd : LowReg) (word8 : Byte) : Leads (s.thumbAddPc rd word8) s.Ends :=
  putLow_ends (.refl s) rfl rfl rfl _ _

theorem thumbAddSp_ends (s : State) (rd : LowReg) (word8 : Byte) : Leads (s.thumbAddSp rd word8) s.Ends :=
  leads_guarded fun _ => putLow_ends (.refl s) rfl rfl rfl _ _

theorem thumbMoveSp_ends (s : State) (sp : Word) : Leads (s.thumbMoveSp sp) s.Ends :=
  leads_guarded fun _ => leads_next (((State.Before.refl s).writeReg _ _).ends _ (by simp) (by simp) (by simp))

theorem thumbLoad_ends (s : State) (ks : List Check) (ea : Word) (w : Width) (rd : LowReg) (data : Word) :
    Leads (s.thumbLoad ks ea w rd data) s.Ends :=
  leads_guarded fun _ => putLow_ends (((State.Before.refl s).chargeData _ _ _).internal 1) rfl rfl rfl _ _

theorem thumbStore_ends (s : State) (ks : List Check) (ea : Word) (w : Width) (v : Word) :
    Leads (s.thumbStore ks ea w v) s.Ends :=
  leads_guarded fun _ => leads_next (((State.Before.refl s).memWrite _ _ _ _).ends _ rfl rfl rfl)

theorem thumbStm_ends (s : State) (m : BlockMode) (rb : RegNum) (rl : BitVec 16) :
    Leads (s.thumbStm m rb rl) s.Ends := leads_guarded fun _ => leads_next (blockStore_ends s _ _ _ _ _)

theorem pop_ends (s : State) (r : Bool) (rl : Byte) : Leads (s.pop r rl) s.Ends := by
  refine leads_guarded fun _ => leads_next ?_
  split
  · exact .branch _ _ (State.Before.blockLoad s _ (.inl rfl) _ _ _ _)
  · exact blockLoad_ends s _ (.inl rfl) _ _ _ _

theorem thumbLdm_ends (s : State) (rb : LowReg) (rl : Byte) : Leads (s.thumbLdm rb rl) s.Ends :=
  leads_guarded fun _ => leads_next (blockLoad_ends s _ (.inl rfl) _ _ _ _)

theorem thumbBranchCond_ends (s : State) (c : Cond) (off : Byte) : Leads (s.thumbBranchCond c off) s.Ends := by
  refine leads_next ?_
  split
  · exact .branch s _ (.refl s)
  · exact s.ends_refl _

theorem thumbBranch_ends (s : State) (off : BitVec 11) : Leads (s.thumbBranch off) s.Ends :=
  leads_next (.branch s _ (.refl s))

theorem thumbBx_ends (s : State) (h2 : Bool) (rs : LowReg) (sbz : BitVec 3) : Leads (s.thumbBx h2 rs sbz) s.Ends :=
  leads_guarded fun _ => leads_next (exchange_ends s _)

theorem reservedBx_ends (s : State) : Leads s.reservedBx s.Ends := leads_fault _

theorem thumbBlHigh_ends (s : State) (off : BitVec 11) : Leads (s.thumbBlHigh off) s.Ends :=
  leads_guarded fun _ => leads_next (((State.Before.refl s).writeReg _ _).ends _ (by simp) (by simp) (by simp))

theorem thumbBlLow_ends (s : State) (off : BitVec 11) : Leads (s.thumbBlLow off) s.Ends :=
  leads_guarded fun _ => leads_next (.branch _ _ ((State.Before.refl s).writeReg _ _))

/-- Every instruction that reaches a next state ends as `State.Ends` says. -/
theorem exec_ends (i : Instr) (s : State) : Leads (exec i s) s.Ends := by
  cases i with
  | andImm => exact dpWrite_ends s _ _ _ _ _ _
  | andShift => exact dpWrite_ends s _ _ _ _ _ _
  | andRegShift => exact dpWrite_ends s _ _ _ _ _ _
  | eorImm => exact dpWrite_ends s _ _ _ _ _ _
  | eorShift => exact dpWrite_ends s _ _ _ _ _ _
  | eorRegShift => exact dpWrite_ends s _ _ _ _ _ _
  | subImm => exact dpWrite_ends s _ _ _ _ _ _
  | subShift => exact dpWrite_ends s _ _ _ _ _ _
  | subRegShift => exact dpWrite_ends s _ _ _ _ _ _
  | rsbImm => exact dpWrite_ends s _ _ _ _ _ _
  | rsbShift => exact dpWrite_ends s _ _ _ _ _ _
  | rsbRegShift => exact dpWrite_ends s _ _ _ _ _ _
  | addImm => exact dpWrite_ends s _ _ _ _ _ _
  | addShift => exact dpWrite_ends s _ _ _ _ _ _
  | addRegShift => exact dpWrite_ends s _ _ _ _ _ _
  | adcImm => exact dpWrite_ends s _ _ _ _ _ _
  | adcShift => exact dpWrite_ends s _ _ _ _ _ _
  | adcRegShift => exact dpWrite_ends s _ _ _ _ _ _
  | sbcImm => exact dpWrite_ends s _ _ _ _ _ _
  | sbcShift => exact dpWrite_ends s _ _ _ _ _ _
  | sbcRegShift => exact dpWrite_ends s _ _ _ _ _ _
  | rscImm => exact dpWrite_ends s _ _ _ _ _ _
  | rscShift => exact dpWrite_ends s _ _ _ _ _ _
  | rscRegShift => exact dpWrite_ends s _ _ _ _ _ _
  | tstImm => exact dpTest_ends s _ _ _ _ _
  | tstShift => exact dpTest_ends s _ _ _ _ _
  | tstRegShift => exact dpTest_ends s _ _ _ _ _
  | teqImm => exact dpTest_ends s _ _ _ _ _
  | teqShift => exact dpTest_ends s _ _ _ _ _
  | teqRegShift => exact dpTest_ends s _ _ _ _ _
  | cmpImm => exact dpTest_ends s _ _ _ _ _
  | cmpShift => exact dpTest_ends s _ _ _ _ _
  | cmpRegShift => exact dpTest_ends s _ _ _ _ _
  | cmnImm => exact dpTest_ends s _ _ _ _ _
  | cmnShift => exact dpTest_ends s _ _ _ _ _
  | cmnRegShift => exact dpTest_ends s _ _ _ _ _
  | orrImm => exact dpWrite_ends s _ _ _ _ _ _
  | orrShift => exact dpWrite_ends s _ _ _ _ _ _
  | orrRegShift => exact dpWrite_ends s _ _ _ _ _ _
  | movImm => exact dpWrite_ends s _ _ _ _ _ _
  | movShift => exact dpWrite_ends s _ _ _ _ _ _
  | movRegShift => exact dpWrite_ends s _ _ _ _ _ _
  | bicImm => exact dpWrite_ends s _ _ _ _ _ _
  | bicShift => exact dpWrite_ends s _ _ _ _ _ _
  | bicRegShift => exact dpWrite_ends s _ _ _ _ _ _
  | mvnImm => exact dpWrite_ends s _ _ _ _ _ _
  | mvnShift => exact dpWrite_ends s _ _ _ _ _ _
  | mvnRegShift => exact dpWrite_ends s _ _ _ _ _ _
  | mrs => exact moveFromPsr_ends s _ _ _ _ _ _
  | msrReg => exact moveToPsr_ends s _ _ _ _ _
  | msrImm => exact moveToPsr_ends s _ _ _ _ _
  | mul => exact multiply_ends s _ _ _ _ _ _ _ _
  | mla => exact multiply_ends s _ _ _ _ _ _ _ _
  | umull => exact multiplyLong_ends s _ _ _ _ _ _ _ _
  | umlal => exact multiplyLong_ends s _ _ _ _ _ _ _ _
  | smull => exact multiplyLong_ends s _ _ _ _ _ _ _ _
  | smlal => exact multiplyLong_ends s _ _ _ _ _ _ _ _
  | swp => exact swap_ends s _ _ _ _ _ _ _ _ _
  | swpb => exact swap_ends s _ _ _ _ _ _ _ _ _
  | bx => exact branchExchange_ends s _ _ _
  | strImmPre => exact str_ends s _ _ _ _ _ _
  | strImmPost => exact str_ends s _ _ _ _ _ _
  | strRegPre => exact str_ends s _ _ _ _ _ _
  | strRegPost => exact str_ends s _ _ _ _ _ _
  | strbImmPre => exact strb_ends s _ _ _ _ _ _
  | strbImmPost => exact strb_ends s _ _ _ _ _ _
  | strbRegPre => exact strb_ends s _ _ _ _ _ _
  | strbRegPost => exact strb_ends s _ _ _ _ _ _
  | ldrImmPre => exact ldr_ends s _ _ _ _ _ _
  | ldrImmPost => exact ldr_ends s _ _ _ _ _ _
  | ldrRegPre => exact ldr_ends s _ _ _ _ _ _
  | ldrRegPost => exact ldr_ends s _ _ _ _ _ _
  | ldrbImmPre => exact ldrb_ends s _ _ _ _ _ _
  | ldrbImmPost => exact ldrb_ends s _ _ _ _ _ _
  | ldrbRegPre => exact ldrb_ends s _ _ _ _ _ _
  | ldrbRegPost => exact ldrb_ends s _ _ _ _ _ _
  | strtImm => exact str_ends s _ _ _ _ _ _
  | strtReg => exact str_ends s _ _ _ _ _ _
  | strbtImm => exact strb_ends s _ _ _ _ _ _
  | strbtReg => exact strb_ends s _ _ _ _ _ _
  | ldrtImm => exact ldr_ends s _ _ _ _ _ _
  | ldrtReg => exact ldr_ends s _ _ _ _ _ _
  | ldrbtImm => exact ldrb_ends s _ _ _ _ _ _
  | ldrbtReg => exact ldrb_ends s _ _ _ _ _ _
  | strhReg => exact strh_ends s _ _ _ _ _ _ _ _
  | strhImm => exact strh_ends s _ _ _ _ _ _ _ _
  | ldrhReg => exact hwLoad_ends s _ _ _ _ _ _ _ _ _ _ _ _
  | ldrhImm => exact hwLoad_ends s _ _ _ _ _ _ _ _ _ _ _ _
  | ldrsbReg => exact hwLoad_ends s _ _ _ _ _ _ _ _ _ _ _ _
  | ldrsbImm => exact hwLoad_ends s _ _ _ _ _ _ _ _ _ _ _ _
  | ldrshReg => exact hwLoad_ends s _ _ _ _ _ _ _ _ _ _ _ _
  | ldrshImm => exact hwLoad_ends s _ _ _ _ _ _ _ _ _ _ _ _
  | reservedLsh10Reg => exact reservedHalfword_ends s _
  | reservedLsh10Imm => exact reservedHalfword_ends s _
  | reservedLsh11Reg => exact reservedHalfword_ends s _
  | reservedLsh11Imm => exact reservedHalfword_ends s _
  | stmda => exact stm_ends s _ _ _ _ _
  | stmia => exact stm_ends s _ _ _ _ _
  | stmdb => exact stm_ends s _ _ _ _ _
  | stmib => exact stm_ends s _ _ _ _ _
  | ldmda => exact ldm_ends s _ _ _ _ _
  | ldmia => exact ldm_ends s _ _ _ _ _
  | ldmdb => exact ldm_ends s _ _ _ _ _
  | ldmib => exact ldm_ends s _ _ _ _ _
  | stmdaUser => exact stmUser_ends s _ _ _ _ _
  | stmiaUser => exact stmUser_ends s _ _ _ _ _
  | stmdbUser => exact stmUser_ends s _ _ _ _ _
  | stmibUser => exact stmUser_ends s _ _ _ _ _
  | ldmdaUser => exact ldmUser_ends s _ _ _ _ _
  | ldmiaUser => exact ldmUser_ends s _ _ _ _ _
  | ldmdbUser => exact ldmUser_ends s _ _ _ _ _
  | ldmibUser => exact ldmUser_ends s _ _ _ _ _
  | ldmdaRet => exact ldmRet_ends s _ _ _ _ _
  | ldmiaRet => exact ldmRet_ends s _ _ _ _ _
  | ldmdbRet => exact ldmRet_ends s _ _ _ _ _
  | ldmibRet => exact ldmRet_ends s _ _ _ _ _
  | b => exact branch_ends s _ _
  | bl => exact branchLink_ends s _ _
  | swi => exact swi_ends s _
  | cdp => exact coprocessor_ends s _
  | ldc => exact coprocessor_ends s _
  | stc => exact coprocessor_ends s _
  | mcr => exact coprocessor_ends s _
  | mrc => exact coprocessor_ends s _
  | undMul => exact undefined_ends s _
  | undMisc1 => exact undefined_ends s _
  | undMisc23 => exact undefined_ends s _
  | undMisc45 => exact undefined_ends s _
  | undMiscHigh => exact undefined_ends s _
  | undSwapOdd => exact undefined_ends s _
  | undSwapW => exact undefined_ends s _
  | undMisc1Row16 => exact undefined_ends s _
  | undSwapHigh => exact undefined_ends s _
  | undPsrImm => exact undefined_ends s _
  | undMedia => exact undefined_ends s _
  | tLslImm => exact thumbShiftImm_ends s _ _ _ _
  | tLsrImm => exact thumbShiftImm_ends s _ _ _ _
  | tAsrImm => exact thumbShiftImm_ends s _ _ _ _
  | tAddReg => exact thumbArith_ends s _ _
  | tSubReg => exact thumbArith_ends s _ _
  | tAddImm3 => exact thumbArith_ends s _ _
  | tSubImm3 => exact thumbArith_ends s _ _
  | tMovImm8 => exact thumbLogic_ends s _ _
  | tCmpImm8 => exact thumbCompare_ends s _
  | tAddImm8 => exact thumbArith_ends s _ _
  | tSubImm8 => exact thumbArith_ends s _ _
  | tAnd => exact thumbLogic_ends s _ _
  | tEor => exact thumbLogic_ends s _ _
  | tLsl => exact thumbShiftReg_ends s _ _ _
  | tLsr => exact thumbShiftReg_ends s _ _ _
  | tAsr => exact thumbShiftReg_ends s _ _ _
  | tAdc => exact thumbArith_ends s _ _
  | tSbc => exact thumbArith_ends s _ _
  | tRor => exact thumbShiftReg_ends s _ _ _
  | tTst => exact thumbTest_ends s _
  | tNeg => exact thumbArith_ends s _ _
  | tCmp => exact thumbCompare_ends s _
  | tCmn => exact thumbCompare_ends s _
  | tOrr => exact thumbLogic_ends s _ _
  | tMul => exact thumbMul_ends s _ _
  | tBic => exact thumbLogic_ends s _ _
  | tMvn => exact thumbLogic_ends s _ _
  | tAddHi => exact thumbAddHi_ends s _ _ _ _
  | tCmpHi => exact thumbCmpHi_ends s _ _ _ _
  | tMovHi => exact thumbMovHi_ends s _ _ _ _
  | tBx => exact thumbBx_ends s _ _ _
  | tBxH1 => exact reservedBx_ends s
  | tLdrPc => exact thumbLoad_ends s [] _ _ _ _
  | tStrReg => exact thumbStore_ends s _ _ _ _
  | tStrhReg => exact thumbStore_ends s _ _ _ _
  | tStrbReg => exact thumbStore_ends s _ _ _ _
  | tLdsbReg => exact thumbLoad_ends s [] _ _ _ _
  | tLdrReg => exact thumbLoad_ends s [] _ _ _ _
  | tLdrhReg => exact thumbLoad_ends s _ _ _ _ _
  | tLdrbReg => exact thumbLoad_ends s [] _ _ _ _
  | tLdshReg => exact thumbLoad_ends s _ _ _ _ _
  | tStrImm => exact thumbStore_ends s _ _ _ _
  | tLdrImm => exact thumbLoad_ends s [] _ _ _ _
  | tStrbImm => exact thumbStore_ends s _ _ _ _
  | tLdrbImm => exact thumbLoad_ends s [] _ _ _ _
  | tStrhImm => exact thumbStore_ends s _ _ _ _
  | tLdrhImm => exact thumbLoad_ends s _ _ _ _ _
  | tStrSp => exact thumbStore_ends s _ _ _ _
  | tLdrSp => exact thumbLoad_ends s _ _ _ _ _
  | tAddPc => exact thumbAddPc_ends s _ _
  | tAddSp => exact thumbAddSp_ends s _ _
  | tIncSp => exact thumbMoveSp_ends s _
  | tDecSp => exact thumbMoveSp_ends s _
  | tPush => exact thumbStm_ends s _ _ _
  | tPop => exact pop_ends s _ _
  | tStmia => exact thumbStm_ends s _ _ _
  | tLdmia => exact thumbLdm_ends s _ _
  | tBeq => exact thumbBranchCond_ends s _ _
  | tBne => exact thumbBranchCond_ends s _ _
  | tBcs => exact thumbBranchCond_ends s _ _
  | tBcc => exact thumbBranchCond_ends s _ _
  | tBmi => exact thumbBranchCond_ends s _ _
  | tBpl => exact thumbBranchCond_ends s _ _
  | tBvs => exact thumbBranchCond_ends s _ _
  | tBvc => exact thumbBranchCond_ends s _ _
  | tBhi => exact thumbBranchCond_ends s _ _
  | tBls => exact thumbBranchCond_ends s _ _
  | tBge => exact thumbBranchCond_ends s _ _
  | tBlt => exact thumbBranchCond_ends s _ _
  | tBgt => exact thumbBranchCond_ends s _ _
  | tBle => exact thumbBranchCond_ends s _ _
  | tSwi => exact softwareInterrupt_ends s
  | tB => exact thumbBranch_ends s _
  | tBlHigh => exact thumbBlHigh_ends s _
  | tBlLow => exact thumbBlLow_ends s _
  | tUndB1 => exact undefinedTrap_ends s
  | tUndB2 => exact undefinedTrap_ends s
  | tUndB6 => exact undefinedTrap_ends s
  | tUndB8 => exact undefinedTrap_ends s
  | tUndBe => exact undefinedTrap_ends s
  | tUndDe => exact undefinedTrap_ends s
  | tUndE8 => exact undefinedTrap_ends s

end Sys2Proof.Machine
end

