-- ==== Sys2Proof/Laws/PerInstr.lean ====
section
/-! SUPPORT. One statement per instruction, made constructor by constructor. -/

namespace Sys2Proof.Laws.EncodeWidth

/-- The encoding of an instruction with a condition takes four bytes and that of one without takes two (R47, R120). -/
def Statement (i : Instr) : Prop := i.encode.bytes.length = if i.cond?.isSome = true then 4 else 2

theorem andImm (c : Cond) (sf : Bool) (rn : BitVec 4) (rd : BitVec 4) (rot : BitVec 4) (imm : Byte) :
    Statement (.andImm c sf rn rd rot imm) := rfl
theorem andShift (c : Cond) (sf : Bool) (rn : RegNum) (rd : RegNum) (amt : BitVec 5) (k : ShiftKind) (rm : RegNum) :
    Statement (.andShift c sf rn rd amt k rm) := rfl
theorem andRegShift (c : Cond) (sf : Bool) (rn : RegNum) (rd : RegNum) (rs : RegNum) (k : ShiftKind) (rm : RegNum) :
    Statement (.andRegShift c sf rn rd rs k rm) := rfl
theorem eorImm (c : Cond) (sf : Bool) (rn : BitVec 4) (rd : BitVec 4) (rot : BitVec 4) (imm : Byte) :
    Statement (.eorImm c sf rn rd rot imm) := rfl
theorem eorShift (c : Cond) (sf : Bool) (rn : RegNum) (rd : RegNum) (amt : BitVec 5) (k : ShiftKind) (rm : RegNum) :
    Statement (.eorShift c sf rn rd amt k rm) := rfl
theorem eorRegShift (c : Cond) (sf : Bool) (rn : RegNum) (rd : RegNum) (rs : RegNum) (k : ShiftKind) (rm : RegNum) :
    Statement (.eorRegShift c sf rn rd rs k rm) := rfl
theorem subImm (c : Cond) (sf : Bool) (rn : BitVec 4) (rd : BitVec 4) (rot : BitVec 4) (imm : Byte) :
    Statement (.subImm c sf rn rd rot imm) := rfl
theorem subShift (c : Cond) (sf : Bool) (rn : RegNum) (rd : RegNum) (amt : BitVec 5) (k : ShiftKind) (rm : RegNum) :
    Statement (.subShift c sf rn rd amt k rm) := rfl
theorem subRegShift (c : Cond) (sf : Bool) (rn : RegNum) (rd : RegNum) (rs : RegNum) (k : ShiftKind) (rm : RegNum) :
    Statement (.subRegShift c sf rn rd rs k rm) := rfl
theorem rsbImm (c : Cond) (sf : Bool) (rn : BitVec 4) (rd : BitVec 4) (rot : BitVec 4) (imm : Byte) :
    Statement (.rsbImm c sf rn rd rot imm) := rfl
theorem rsbShift (c : Cond) (sf : Bool) (rn : RegNum) (rd : RegNum) (amt : BitVec 5) (k : ShiftKind) (rm : RegNum) :
    Statement (.rsbShift c sf rn rd amt k rm) := rfl
theorem rsbRegShift (c : Cond) (sf : Bool) (rn : RegNum) (rd : RegNum) (rs : RegNum) (k : ShiftKind) (rm : RegNum) :
    Statement (.rsbRegShift c sf rn rd rs k rm) := rfl
theorem addImm (c : Cond) (sf : Bool) (rn : BitVec 4) (rd : BitVec 4) (rot : BitVec 4) (imm : Byte) :
    Statement (.addImm c sf rn rd rot imm) := rfl
theorem addShift (c : Cond) (sf : Bool) (rn : RegNum) (rd : RegNum) (amt : BitVec 5) (k : ShiftKind) (rm : RegNum) :
    Statement (.addShift c sf rn rd amt k rm) := rfl
theorem addRegShift (c : Cond) (sf : Bool) (rn : RegNum) (rd : RegNum) (rs : RegNum) (k : ShiftKind) (rm : RegNum) :
    Statement (.addRegShift c sf rn rd rs k rm) := rfl
theorem adcImm (c : Cond) (sf : Bool) (rn : BitVec 4) (rd : BitVec 4) (rot : BitVec 4) (imm : Byte) :
    Statement (.adcImm c sf rn rd rot imm) := rfl
theorem adcShift (c : Cond) (sf : Bool) (rn : RegNum) (rd : RegNum) (amt : BitVec 5) (k : ShiftKind) (rm : RegNum) :
    Statement (.adcShift c sf rn rd amt k rm) := rfl
theorem adcRegShift (c : Cond) (sf : Bool) (rn : RegNum) (rd : RegNum) (rs : RegNum) (k : ShiftKind) (rm : RegNum) :
    Statement (.adcRegShift c sf rn rd rs k rm) := rfl
theorem sbcImm (c : Cond) (sf : Bool) (rn : BitVec 4) (rd : BitVec 4) (rot : BitVec 4) (imm : Byte) :
    Statement (.sbcImm c sf rn rd rot imm) := rfl
theorem sbcShift (c : Cond) (sf : Bool) (rn : RegNum) (rd : RegNum) (amt : BitVec 5) (k : ShiftKind) (rm : RegNum) :
    Statement (.sbcShift c sf rn rd amt k rm) := rfl
theorem sbcRegShift (c : Cond) (sf : Bool) (rn : RegNum) (rd : RegNum) (rs : RegNum) (k : ShiftKind) (rm : RegNum) :
    Statement (.sbcRegShift c sf rn rd rs k rm) := rfl
theorem rscImm (c : Cond) (sf : Bool) (rn : BitVec 4) (rd : BitVec 4) (rot : BitVec 4) (imm : Byte) :
    Statement (.rscImm c sf rn rd rot imm) := rfl
theorem rscShift (c : Cond) (sf : Bool) (rn : RegNum) (rd : RegNum) (amt : BitVec 5) (k : ShiftKind) (rm : RegNum) :
    Statement (.rscShift c sf rn rd amt k rm) := rfl
theorem rscRegShift (c : Cond) (sf : Bool) (rn : RegNum) (rd : RegNum) (rs : RegNum) (k : ShiftKind) (rm : RegNum) :
    Statement (.rscRegShift c sf rn rd rs k rm) := rfl
theorem tstImm (c : Cond) (rn : BitVec 4) (sbz : BitVec 4) (rot : BitVec 4) (imm : Byte) :
    Statement (.tstImm c rn sbz rot imm) := rfl
theorem tstShift (c : Cond) (rn : RegNum) (sbz : RegNum) (amt : BitVec 5) (k : ShiftKind) (rm : RegNum) :
    Statement (.tstShift c rn sbz amt k rm) := rfl
theorem tstRegShift (c : Cond) (rn : RegNum) (sbz : RegNum) (rs : RegNum) (k : ShiftKind) (rm : RegNum) :
    Statement (.tstRegShift c rn sbz rs k rm) := rfl
theorem teqImm (c : Cond) (rn : BitVec 4) (sbz : BitVec 4) (rot : BitVec 4) (imm : Byte) :
    Statement (.teqImm c rn sbz rot imm) := rfl
theorem teqShift (c : Cond) (rn : RegNum) (sbz : RegNum) (amt : BitVec 5) (k : ShiftKind) (rm : RegNum) :
    Statement (.teqShift c rn sbz amt k rm) := rfl
theorem teqRegShift (c : Cond) (rn : RegNum) (sbz : RegNum) (rs : RegNum) (k : ShiftKind) (rm : RegNum) :
    Statement (.teqRegShift c rn sbz rs k rm) := rfl
theorem cmpImm (c : Cond) (rn : BitVec 4) (sbz : BitVec 4) (rot : BitVec 4) (imm : Byte) :
    Statement (.cmpImm c rn sbz rot imm) := rfl
theorem cmpShift (c : Cond) (rn : RegNum) (sbz : RegNum) (amt : BitVec 5) (k : ShiftKind) (rm : RegNum) :
    Statement (.cmpShift c rn sbz amt k rm) := rfl
theorem cmpRegShift (c : Cond) (rn : RegNum) (sbz : RegNum) (rs : RegNum) (k : ShiftKind) (rm : RegNum) :
    Statement (.cmpRegShift c rn sbz rs k rm) := rfl
theorem cmnImm (c : Cond) (rn : BitVec 4) (sbz : BitVec 4) (rot : BitVec 4) (imm : Byte) :
    Statement (.cmnImm c rn sbz rot imm) := rfl
theorem cmnShift (c : Cond) (rn : RegNum) (sbz : RegNum) (amt : BitVec 5) (k : ShiftKind) (rm : RegNum) :
    Statement (.cmnShift c rn sbz amt k rm) := rfl
theorem cmnRegShift (c : Cond) (rn : RegNum) (sbz : RegNum) (rs : RegNum) (k : ShiftKind) (rm : RegNum) :
    Statement (.cmnRegShift c rn sbz rs k rm) := rfl
theorem orrImm (c : Cond) (sf : Bool) (rn : BitVec 4) (rd : BitVec 4) (rot : BitVec 4) (imm : Byte) :
    Statement (.orrImm c sf rn rd rot imm) := rfl
theorem orrShift (c : Cond) (sf : Bool) (rn : RegNum) (rd : RegNum) (amt : BitVec 5) (k : ShiftKind) (rm : RegNum) :
    Statement (.orrShift c sf rn rd amt k rm) := rfl
theorem orrRegShift (c : Cond) (sf : Bool) (rn : RegNum) (rd : RegNum) (rs : RegNum) (k : ShiftKind) (rm : RegNum) :
    Statement (.orrRegShift c sf rn rd rs k rm) := rfl
theorem movImm (c : Cond) (sf : Bool) (sbz : BitVec 4) (rd : BitVec 4) (rot : BitVec 4) (imm : Byte) :
    Statement (.movImm c sf sbz rd rot imm) := rfl
theorem movShift (c : Cond) (sf : Bool) (sbz : RegNum) (rd : RegNum) (amt : BitVec 5) (k : ShiftKind) (rm : RegNum) :
    Statement (.movShift c sf sbz rd amt k rm) := rfl
theorem movRegShift (c : Cond) (sf : Bool) (sbz : RegNum) (rd : RegNum) (rs : RegNum) (k : ShiftKind) (rm : RegNum) :
    Statement (.movRegShift c sf sbz rd rs k rm) := rfl
theorem bicImm (c : Cond) (sf : Bool) (rn : BitVec 4) (rd : BitVec 4) (rot : BitVec 4) (imm : Byte) :
    Statement (.bicImm c sf rn rd rot imm) := rfl
theorem bicShift (c : Cond) (sf : Bool) (rn : RegNum) (rd : RegNum) (amt : BitVec 5) (k : ShiftKind) (rm : RegNum) :
    Statement (.bicShift c sf rn rd amt k rm) := rfl
theorem bicRegShift (c : Cond) (sf : Bool) (rn : RegNum) (rd : RegNum) (rs : RegNum) (k : ShiftKind) (rm : RegNum) :
    Statement (.bicRegShift c sf rn rd rs k rm) := rfl
theorem mvnImm (c : Cond) (sf : Bool) (sbz : BitVec 4) (rd : BitVec 4) (rot : BitVec 4) (imm : Byte) :
    Statement (.mvnImm c sf sbz rd rot imm) := rfl
theorem mvnShift (c : Cond) (sf : Bool) (sbz : RegNum) (rd : RegNum) (amt : BitVec 5) (k : ShiftKind) (rm : RegNum) :
    Statement (.mvnShift c sf sbz rd amt k rm) := rfl
theorem mvnRegShift (c : Cond) (sf : Bool) (sbz : RegNum) (rd : RegNum) (rs : RegNum) (k : ShiftKind) (rm : RegNum) :
    Statement (.mvnRegShift c sf sbz rd rs k rm) := rfl
theorem mrs (c : Cond) (r : Bool) (sbo : BitVec 4) (rd : RegNum) (sbzHi : BitVec 4) (sbzLo : BitVec 4) :
    Statement (.mrs c r sbo rd sbzHi sbzLo) := rfl
theorem msrReg (c : Cond) (r : Bool) (mask : BitVec 4) (sbo : BitVec 4) (sbz : BitVec 4) (rm : RegNum) :
    Statement (.msrReg c r mask sbo sbz rm) := rfl
theorem msrImm (c : Cond) (r : Bool) (mask : BitVec 4) (sbo : BitVec 4) (rot : BitVec 4) (imm : Byte) :
    Statement (.msrImm c r mask sbo rot imm) := rfl
theorem mul (c : Cond) (sf : Bool) (rd : RegNum) (sbz : RegNum) (rs : RegNum) (rm : RegNum) :
    Statement (.mul c sf rd sbz rs rm) := rfl
theorem mla (c : Cond) (sf : Bool) (rd : RegNum) (rn : RegNum) (rs : RegNum) (rm : RegNum) :
    Statement (.mla c sf rd rn rs rm) := rfl
theorem umull (c : Cond) (sf : Bool) (rdHi : RegNum) (rdLo : RegNum) (rs : RegNum) (rm : RegNum) :
    Statement (.umull c sf rdHi rdLo rs rm) := rfl
theorem umlal (c : Cond) (sf : Bool) (rdHi : RegNum) (rdLo : RegNum) (rs : RegNum) (rm : RegNum) :
    Statement (.umlal c sf rdHi rdLo rs rm) := rfl
theorem smull (c : Cond) (sf : Bool) (rdHi : RegNum) (rdLo : RegNum) (rs : RegNum) (rm : RegNum) :
    Statement (.smull c sf rdHi rdLo rs rm) := rfl
theorem smlal (c : Cond) (sf : Bool) (rdHi : RegNum) (rdLo : RegNum) (rs : RegNum) (rm : RegNum) :
    Statement (.smlal c sf rdHi rdLo rs rm) := rfl
theorem swp (c : Cond) (rn : RegNum) (rd : RegNum) (sbz : RegNum) (rm : RegNum) :
    Statement (.swp c rn rd sbz rm) := rfl
theorem swpb (c : Cond) (rn : RegNum) (rd : RegNum) (sbz : RegNum) (rm : RegNum) :
    Statement (.swpb c rn rd sbz rm) := rfl
theorem bx (c : Cond) (sbo : BitVec 12) (rm : RegNum) :
    Statement (.bx c sbo rm) := rfl
theorem strImmPre (c : Cond) (u : Bool) (w : Bool) (rn : RegNum) (rd : RegNum) (off : BitVec 12) :
    Statement (.strImmPre c u w rn rd off) := rfl
theorem strImmPost (c : Cond) (u : Bool) (rn : RegNum) (rd : RegNum) (off : BitVec 12) :
    Statement (.strImmPost c u rn rd off) := rfl
theorem strRegPre (c : Cond) (u : Bool) (w : Bool) (rn : RegNum) (rd : RegNum) (amt : BitVec 5) (k : ShiftKind) (rm : RegNum) :
    Statement (.strRegPre c u w rn rd amt k rm) := rfl
theorem strRegPost (c : Cond) (u : Bool) (rn : RegNum) (rd : RegNum) (amt : BitVec 5) (k : ShiftKind) (rm : RegNum) :
    Statement (.strRegPost c u rn rd amt k rm) := rfl
theorem strbImmPre (c : Cond) (u : Bool) (w : Bool) (rn : RegNum) (rd : RegNum) (off : BitVec 12) :
    Statement (.strbImmPre c u w rn rd off) := rfl
theorem strbImmPost (c : Cond) (u : Bool) (rn : RegNum) (rd : RegNum) (off : BitVec 12) :
    Statement (.strbImmPost c u rn rd off) := rfl
theorem strbRegPre (c : Cond) (u : Bool) (w : Bool) (rn : RegNum) (rd : RegNum) (amt : BitVec 5) (k : ShiftKind) (rm : RegNum) :
    Statement (.strbRegPre c u w rn rd amt k rm) := rfl
theorem strbRegPost (c : Cond) (u : Bool) (rn : RegNum) (rd : RegNum) (amt : BitVec 5) (k : ShiftKind) (rm : RegNum) :
    Statement (.strbRegPost c u rn rd amt k rm) := rfl
theorem ldrImmPre (c : Cond) (u : Bool) (w : Bool) (rn : RegNum) (rd : RegNum) (off : BitVec 12) :
    Statement (.ldrImmPre c u w rn rd off) := rfl
theorem ldrImmPost (c : Cond) (u : Bool) (rn : RegNum) (rd : RegNum) (off : BitVec 12) :
    Statement (.ldrImmPost c u rn rd off) := rfl
theorem ldrRegPre (c : Cond) (u : Bool) (w : Bool) (rn : RegNum) (rd : RegNum) (amt : BitVec 5) (k : ShiftKind) (rm : RegNum) :
    Statement (.ldrRegPre c u w rn rd amt k rm) := rfl
theorem ldrRegPost (c : Cond) (u : Bool) (rn : RegNum) (rd : RegNum) (amt : BitVec 5) (k : ShiftKind) (rm : RegNum) :
    Statement (.ldrRegPost c u rn rd amt k rm) := rfl
theorem ldrbImmPre (c : Cond) (u : Bool) (w : Bool) (rn : RegNum) (rd : RegNum) (off : BitVec 12) :
    Statement (.ldrbImmPre c u w rn rd off) := rfl
theorem ldrbImmPost (c : Cond) (u : Bool) (rn : RegNum) (rd : RegNum) (off : BitVec 12) :
    Statement (.ldrbImmPost c u rn rd off) := rfl
theorem ldrbRegPre (c : Cond) (u : Bool) (w : Bool) (rn : RegNum) (rd : RegNum) (amt : BitVec 5) (k : ShiftKind) (rm : RegNum) :
    Statement (.ldrbRegPre c u w rn rd amt k rm) := rfl
theorem ldrbRegPost (c : Cond) (u : Bool) (rn : RegNum) (rd : RegNum) (amt : BitVec 5) (k : ShiftKind) (rm : RegNum) :
    Statement (.ldrbRegPost c u rn rd amt k rm) := rfl
theorem strtImm (c : Cond) (u : Bool) (rn : RegNum) (rd : RegNum) (off : BitVec 12) :
    Statement (.strtImm c u rn rd off) := rfl
theorem strtReg (c : Cond) (u : Bool) (rn : RegNum) (rd : RegNum) (amt : BitVec 5) (k : ShiftKind) (rm : RegNum) :
    Statement (.strtReg c u rn rd amt k rm) := rfl
theorem strbtImm (c : Cond) (u : Bool) (rn : RegNum) (rd : RegNum) (off : BitVec 12) :
    Statement (.strbtImm c u rn rd off) := rfl
theorem strbtReg (c : Cond) (u : Bool) (rn : RegNum) (rd : RegNum) (amt : BitVec 5) (k : ShiftKind) (rm : RegNum) :
    Statement (.strbtReg c u rn rd amt k rm) := rfl
theorem ldrtImm (c : Cond) (u : Bool) (rn : RegNum) (rd : RegNum) (off : BitVec 12) :
    Statement (.ldrtImm c u rn rd off) := rfl
theorem ldrtReg (c : Cond) (u : Bool) (rn : RegNum) (rd : RegNum) (amt : BitVec 5) (k : ShiftKind) (rm : RegNum) :
    Statement (.ldrtReg c u rn rd amt k rm) := rfl
theorem ldrbtImm (c : Cond) (u : Bool) (rn : RegNum) (rd : RegNum) (off : BitVec 12) :
    Statement (.ldrbtImm c u rn rd off) := rfl
theorem ldrbtReg (c : Cond) (u : Bool) (rn : RegNum) (rd : RegNum) (amt : BitVec 5) (k : ShiftKind) (rm : RegNum) :
    Statement (.ldrbtReg c u rn rd amt k rm) := rfl
theorem strhReg (c : Cond) (p : Bool) (u : Bool) (w : Bool) (rn : RegNum) (rd : RegNum) (sbz : RegNum) (rm : RegNum) :
    Statement (.strhReg c p u w rn rd sbz rm) := rfl
theorem strhImm (c : Cond) (p : Bool) (u : Bool) (w : Bool) (rn : RegNum) (rd : RegNum) (hi : BitVec 4) (lo : BitVec 4) :
    Statement (.strhImm c p u w rn rd hi lo) := rfl
theorem ldrhReg (c : Cond) (p : Bool) (u : Bool) (w : Bool) (rn : RegNum) (rd : RegNum) (sbz : RegNum) (rm : RegNum) :
    Statement (.ldrhReg c p u w rn rd sbz rm) := rfl
theorem ldrhImm (c : Cond) (p : Bool) (u : Bool) (w : Bool) (rn : RegNum) (rd : RegNum) (hi : BitVec 4) (lo : BitVec 4) :
    Statement (.ldrhImm c p u w rn rd hi lo) := rfl
theorem ldrsbReg (c : Cond) (p : Bool) (u : Bool) (w : Bool) (rn : RegNum) (rd : RegNum) (sbz : RegNum) (rm : RegNum) :
    Statement (.ldrsbReg c p u w rn rd sbz rm) := rfl
theorem ldrsbImm (c : Cond) (p : Bool) (u : Bool) (w : Bool) (rn : RegNum) (rd : RegNum) (hi : BitVec 4) (lo : BitVec 4) :
    Statement (.ldrsbImm c p u w rn rd hi lo) := rfl
theorem ldrshReg (c : Cond) (p : Bool) (u : Bool) (w : Bool) (rn : RegNum) (rd : RegNum) (sbz : RegNum) (rm : RegNum) :
    Statement (.ldrshReg c p u w rn rd sbz rm) := rfl
theorem ldrshImm (c : Cond) (p : Bool) (u : Bool) (w : Bool) (rn : RegNum) (rd : RegNum) (hi : BitVec 4) (lo : BitVec 4) :
    Statement (.ldrshImm c p u w rn rd hi lo) := rfl
theorem reservedLsh10Reg (c : Cond) (p : Bool) (u : Bool) (w : Bool) (rn : BitVec 4) (rd : BitVec 4) (hi : BitVec 4) (lo : BitVec 4) :
    Statement (.reservedLsh10Reg c p u w rn rd hi lo) := rfl
theorem reservedLsh10Imm (c : Cond) (p : Bool) (u : Bool) (w : Bool) (rn : BitVec 4) (rd : BitVec 4) (hi : BitVec 4) (lo : BitVec 4) :
    Statement (.reservedLsh10Imm c p u w rn rd hi lo) := rfl
theorem reservedLsh11Reg (c : Cond) (p : Bool) (u : Bool) (w : Bool) (rn : BitVec 4) (rd : BitVec 4) (hi : BitVec 4) (lo : BitVec 4) :
    Statement (.reservedLsh11Reg c p u w rn rd hi lo) := rfl
theorem reservedLsh11Imm (c : Cond) (p : Bool) (u : Bool) (w : Bool) (rn : BitVec 4) (rd : BitVec 4) (hi : BitVec 4) (lo : BitVec 4) :
    Statement (.reservedLsh11Imm c p u w rn rd hi lo) := rfl
theorem stmda (c : Cond) (w : Bool) (rn : RegNum) (rl : BitVec 16) :
    Statement (.stmda c w rn rl) := rfl
theorem stmia (c : Cond) (w : Bool) (rn : RegNum) (rl : BitVec 16) :
    Statement (.stmia c w rn rl) := rfl
theorem stmdb (c : Cond) (w : Bool) (rn : RegNum) (rl : BitVec 16) :
    Statement (.stmdb c w rn rl) := rfl
theorem stmib (c : Cond) (w : Bool) (rn : RegNum) (rl : BitVec 16) :
    Statement (.stmib c w rn rl) := rfl
theorem ldmda (c : Cond) (w : Bool) (rn : RegNum) (rl : BitVec 16) :
    Statement (.ldmda c w rn rl) := rfl
theorem ldmia (c : Cond) (w : Bool) (rn : RegNum) (rl : BitVec 16) :
    Statement (.ldmia c w rn rl) := rfl
theorem ldmdb (c : Cond) (w : Bool) (rn : RegNum) (rl : BitVec 16) :
    Statement (.ldmdb c w rn rl) := rfl
theorem ldmib (c : Cond) (w : Bool) (rn : RegNum) (rl : BitVec 16) :
    Statement (.ldmib c w rn rl) := rfl
theorem stmdaUser (c : Cond) (w : Bool) (rn : RegNum) (rl : BitVec 16) :
    Statement (.stmdaUser c w rn rl) := rfl
theorem stmiaUser (c : Cond) (w : Bool) (rn : RegNum) (rl : BitVec 16) :
    Statement (.stmiaUser c w rn rl) := rfl
theorem stmdbUser (c : Cond) (w : Bool) (rn : RegNum) (rl : BitVec 16) :
    Statement (.stmdbUser c w rn rl) := rfl
theorem stmibUser (c : Cond) (w : Bool) (rn : RegNum) (rl : BitVec 16) :
    Statement (.stmibUser c w rn rl) := rfl
theorem ldmdaUser (c : Cond) (w : Bool) (rn : RegNum) (rl : BitVec 15) :
    Statement (.ldmdaUser c w rn rl) := rfl
theorem ldmiaUser (c : Cond) (w : Bool) (rn : RegNum) (rl : BitVec 15) :
    Statement (.ldmiaUser c w rn rl) := rfl
theorem ldmdbUser (c : Cond) (w : Bool) (rn : RegNum) (rl : BitVec 15) :
    Statement (.ldmdbUser c w rn rl) := rfl
theorem ldmibUser (c : Cond) (w : Bool) (rn : RegNum) (rl : BitVec 15) :
    Statement (.ldmibUser c w rn rl) := rfl
theorem ldmdaRet (c : Cond) (w : Bool) (rn : RegNum) (rl : BitVec 15) :
    Statement (.ldmdaRet c w rn rl) := rfl
theorem ldmiaRet (c : Cond) (w : Bool) (rn : RegNum) (rl : BitVec 15) :
    Statement (.ldmiaRet c w rn rl) := rfl
theorem ldmdbRet (c : Cond) (w : Bool) (rn : RegNum) (rl : BitVec 15) :
    Statement (.ldmdbRet c w rn rl) := rfl
theorem ldmibRet (c : Cond) (w : Bool) (rn : RegNum) (rl : BitVec 15) :
    Statement (.ldmibRet c w rn rl) := rfl
theorem b (c : Cond) (off : BitVec 24) :
    Statement (.b c off) := rfl
theorem bl (c : Cond) (off : BitVec 24) :
    Statement (.bl c off) := rfl
theorem swi (c : Cond) (imm : BitVec 24) :
    Statement (.swi c imm) := rfl
theorem cdp (c : Cond) (op1 : BitVec 4) (crn : BitVec 4) (crd : BitVec 4) (cp : BitVec 4) (op2 : BitVec 3) (crm : BitVec 4) :
    Statement (.cdp c op1 crn crd cp op2 crm) := rfl
theorem ldc (c : Cond) (p : Bool) (u : Bool) (n : Bool) (w : Bool) (rn : RegNum) (crd : BitVec 4) (cp : BitVec 4) (off : Byte) :
    Statement (.ldc c p u n w rn crd cp off) := rfl
theorem stc (c : Cond) (p : Bool) (u : Bool) (n : Bool) (w : Bool) (rn : RegNum) (crd : BitVec 4) (cp : BitVec 4) (off : Byte) :
    Statement (.stc c p u n w rn crd cp off) := rfl
theorem mcr (c : Cond) (op1 : BitVec 3) (crn : BitVec 4) (rd : RegNum) (cp : BitVec 4) (op2 : BitVec 3) (crm : BitVec 4) :
    Statement (.mcr c op1 crn rd cp op2 crm) := rfl
theorem mrc (c : Cond) (op1 : BitVec 3) (crn : BitVec 4) (rd : RegNum) (cp : BitVec 4) (op2 : BitVec 3) (crm : BitVec 4) :
    Statement (.mrc c op1 crn rd cp op2 crm) := rfl
theorem undMul (c : Cond) (body : BitVec 28) :
    Statement (.undMul c body) := rfl
theorem undMisc1 (c : Cond) (body : BitVec 28) :
    Statement (.undMisc1 c body) := rfl
theorem undMisc23 (c : Cond) (body : BitVec 28) :
    Statement (.undMisc23 c body) := rfl
theorem undMisc45 (c : Cond) (body : BitVec 28) :
    Statement (.undMisc45 c body) := rfl
theorem undMiscHigh (c : Cond) (body : BitVec 28) :
    Statement (.undMiscHigh c body) := rfl
theorem undSwapOdd (c : Cond) (body : BitVec 28) :
    Statement (.undSwapOdd c body) := rfl
theorem undSwapW (c : Cond) (body : BitVec 28) :
    Statement (.undSwapW c body) := rfl
theorem undMisc1Row16 (c : Cond) (body : BitVec 28) :
    Statement (.undMisc1Row16 c body) := rfl
theorem undSwapHigh (c : Cond) (body : BitVec 28) :
    Statement (.undSwapHigh c body) := rfl
theorem undPsrImm (c : Cond) (body : BitVec 28) :
    Statement (.undPsrImm c body) := rfl
theorem undMedia (c : Cond) (body : BitVec 28) :
    Statement (.undMedia c body) := rfl
theorem tLslImm (off : BitVec 5) (rs : LowReg) (rd : LowReg) :
    Statement (.tLslImm off rs rd) := rfl
theorem tLsrImm (off : BitVec 5) (rs : LowReg) (rd : LowReg) :
    Statement (.tLsrImm off rs rd) := rfl
theorem tAsrImm (off : BitVec 5) (rs : LowReg) (rd : LowReg) :
    Statement (.tAsrImm off rs rd) := rfl
theorem tAddReg (rn : LowReg) (rs : LowReg) (rd : LowReg) :
    Statement (.tAddReg rn rs rd) := rfl
theorem tSubReg (rn : LowReg) (rs : LowReg) (rd : LowReg) :
    Statement (.tSubReg rn rs rd) := rfl
theorem tAddImm3 (off : BitVec 3) (rs : LowReg) (rd : LowReg) :
    Statement (.tAddImm3 off rs rd) := rfl
theorem tSubImm3 (off : BitVec 3) (rs : LowReg) (rd : LowReg) :
    Statement (.tSubImm3 off rs rd) := rfl
theorem tMovImm8 (rd : LowReg) (off : Byte) :
    Statement (.tMovImm8 rd off) := rfl
theorem tCmpImm8 (rd : LowReg) (off : Byte) :
    Statement (.tCmpImm8 rd off) := rfl
theorem tAddImm8 (rd : LowReg) (off : Byte) :
    Statement (.tAddImm8 rd off) := rfl
theorem tSubImm8 (rd : LowReg) (off : Byte) :
    Statement (.tSubImm8 rd off) := rfl
theorem tAnd (rs : LowReg) (rd : LowReg) :
    Statement (.tAnd rs rd) := rfl
theorem tEor (rs : LowReg) (rd : LowReg) :
    Statement (.tEor rs rd) := rfl
theorem tLsl (rs : LowReg) (rd : LowReg) :
    Statement (.tLsl rs rd) := rfl
theorem tLsr (rs : LowReg) (rd : LowReg) :
    Statement (.tLsr rs rd) := rfl
theorem tAsr (rs : LowReg) (rd : LowReg) :
    Statement (.tAsr rs rd) := rfl
theorem tAdc (rs : LowReg) (rd : LowReg) :
    Statement (.tAdc rs rd) := rfl
theorem tSbc (rs : LowReg) (rd : LowReg) :
    Statement (.tSbc rs rd) := rfl
theorem tRor (rs : LowReg) (rd : LowReg) :
    Statement (.tRor rs rd) := rfl
theorem tTst (rs : LowReg) (rd : LowReg) :
    Statement (.tTst rs rd) := rfl
theorem tNeg (rs : LowReg) (rd : LowReg) :
    Statement (.tNeg rs rd) := rfl
theorem tCmp (rs : LowReg) (rd : LowReg) :
    Statement (.tCmp rs rd) := rfl
theorem tCmn (rs : LowReg) (rd : LowReg) :
    Statement (.tCmn rs rd) := rfl
theorem tOrr (rs : LowReg) (rd : LowReg) :
    Statement (.tOrr rs rd) := rfl
theorem tMul (rs : LowReg) (rd : LowReg) :
    Statement (.tMul rs rd) := rfl
theorem tBic (rs : LowReg) (rd : LowReg) :
    Statement (.tBic rs rd) := rfl
theorem tMvn (rs : LowReg) (rd : LowReg) :
    Statement (.tMvn rs rd) := rfl
theorem tAddHi (h1 : Bool) (h2 : Bool) (rs : LowReg) (rd : LowReg) :
    Statement (.tAddHi h1 h2 rs rd) := rfl
theorem tCmpHi (h1 : Bool) (h2 : Bool) (rs : LowReg) (rd : LowReg) :
    Statement (.tCmpHi h1 h2 rs rd) := rfl
theorem tMovHi (h1 : Bool) (h2 : Bool) (rs : LowReg) (rd : LowReg) :
    Statement (.tMovHi h1 h2 rs rd) := rfl
theorem tBx (h2 : Bool) (rs : LowReg) (sbz : BitVec 3) :
    Statement (.tBx h2 rs sbz) := rfl
theorem tBxH1 (h2 : Bool) (rs : LowReg) (sbz : BitVec 3) :
    Statement (.tBxH1 h2 rs sbz) := rfl
theorem tLdrPc (rd : LowReg) (word8 : Byte) :
    Statement (.tLdrPc rd word8) := rfl
theorem tStrReg (ro : LowReg) (rb : LowReg) (rd : LowReg) :
    Statement (.tStrReg ro rb rd) := rfl
theorem tStrhReg (ro : LowReg) (rb : LowReg) (rd : LowReg) :
    Statement (.tStrhReg ro rb rd) := rfl
theorem tStrbReg (ro : LowReg) (rb : LowReg) (rd : LowReg) :
    Statement (.tStrbReg ro rb rd) := rfl
theorem tLdsbReg (ro : LowReg) (rb : LowReg) (rd : LowReg) :
    Statement (.tLdsbReg ro rb rd) := rfl
theorem tLdrReg (ro : LowReg) (rb : LowReg) (rd : LowReg) :
    Statement (.tLdrReg ro rb rd) := rfl
theorem tLdrhReg (ro : LowReg) (rb : LowReg) (rd : LowReg) :
    Statement (.tLdrhReg ro rb rd) := rfl
theorem tLdrbReg (ro : LowReg) (rb : LowReg) (rd : LowReg) :
    Statement (.tLdrbReg ro rb rd) := rfl
theorem tLdshReg (ro : LowReg) (rb : LowReg) (rd : LowReg) :
    Statement (.tLdshReg ro rb rd) := rfl
theorem tStrImm (off : BitVec 5) (rb : LowReg) (rd : LowReg) :
    Statement (.tStrImm off rb rd) := rfl
theorem tLdrImm (off : BitVec 5) (rb : LowReg) (rd : LowReg) :
    Statement (.tLdrImm off rb rd) := rfl
theorem tStrbImm (off : BitVec 5) (rb : LowReg) (rd : LowReg) :
    Statement (.tStrbImm off rb rd) := rfl
theorem tLdrbImm (off : BitVec 5) (rb : LowReg) (rd : LowReg) :
    Statement (.tLdrbImm off rb rd) := rfl
theorem tStrhImm (off : BitVec 5) (rb : LowReg) (rd : LowReg) :
    Statement (.tStrhImm off rb rd) := rfl
theorem tLdrhImm (off : BitVec 5) (rb : LowReg) (rd : LowReg) :
    Statement (.tLdrhImm off rb rd) := rfl
theorem tStrSp (rd : LowReg) (word8 : Byte) :
    Statement (.tStrSp rd word8) := rfl
theorem tLdrSp (rd : LowReg) (word8 : Byte) :
    Statement (.tLdrSp rd word8) := rfl
theorem tAddPc (rd : LowReg) (word8 : Byte) :
    Statement (.tAddPc rd word8) := rfl
theorem tAddSp (rd : LowReg) (word8 : Byte) :
    Statement (.tAddSp rd word8) := rfl
theorem tIncSp (word7 : BitVec 7) :
    Statement (.tIncSp word7) := rfl
theorem tDecSp (word7 : BitVec 7) :
    Statement (.tDecSp word7) := rfl
theorem tPush (r : Bool) (rl : Byte) :
    Statement (.tPush r rl) := rfl
theorem tPop (r : Bool) (rl : Byte) :
    Statement (.tPop r rl) := rfl
theorem tStmia (rb : LowReg) (rl : Byte) :
    Statement (.tStmia rb rl) := rfl
theorem tLdmia (rb : LowReg) (rl : Byte) :
    Statement (.tLdmia rb rl) := rfl
theorem tBeq (off : Byte) :
    Statement (.tBeq off) := rfl
theorem tBne (off : Byte) :
    Statement (.tBne off) := rfl
theorem tBcs (off : Byte) :
    Statement (.tBcs off) := rfl
theorem tBcc (off : Byte) :
    Statement (.tBcc off) := rfl
theorem tBmi (off : Byte) :
    Statement (.tBmi off) := rfl
theorem tBpl (off : Byte) :
    Statement (.tBpl off) := rfl
theorem tBvs (off : Byte) :
    Statement (.tBvs off) := rfl
theorem tBvc (off : Byte) :
    Statement (.tBvc off) := rfl
theorem tBhi (off : Byte) :
    Statement (.tBhi off) := rfl
theorem tBls (off : Byte) :
    Statement (.tBls off) := rfl
theorem tBge (off : Byte) :
    Statement (.tBge off) := rfl
theorem tBlt (off : Byte) :
    Statement (.tBlt off) := rfl
theorem tBgt (off : Byte) :
    Statement (.tBgt off) := rfl
theorem tBle (off : Byte) :
    Statement (.tBle off) := rfl
theorem tSwi (imm : Byte) :
    Statement (.tSwi imm) := rfl
theorem tB (off : BitVec 11) :
    Statement (.tB off) := rfl
theorem tBlHigh (off : BitVec 11) :
    Statement (.tBlHigh off) := rfl
theorem tBlLow (off : BitVec 11) :
    Statement (.tBlLow off) := rfl
theorem tUndB1 (bits : BitVec 8) :
    Statement (.tUndB1 bits) := rfl
theorem tUndB2 (bits : BitVec 9) :
    Statement (.tUndB2 bits) := rfl
theorem tUndB6 (bits : BitVec 9) :
    Statement (.tUndB6 bits) := rfl
theorem tUndB8 (bits : BitVec 10) :
    Statement (.tUndB8 bits) := rfl
theorem tUndBe (bits : BitVec 9) :
    Statement (.tUndBe bits) := rfl
theorem tUndDe (bits : BitVec 8) :
    Statement (.tUndDe bits) := rfl
theorem tUndE8 (bits : BitVec 11) :
    Statement (.tUndE8 bits) := rfl

end Sys2Proof.Laws.EncodeWidth
end

