-- ==== Sys2Proof/Tests/Slice0.lean ====
section
/-! SUPPORT. Tests: well-formedness, decoding of words written out from 30_encoding.md and spec/opcode_table.json, one
step each of the vectors of spec/95_test_vectors.md, and a witness of the hypotheses of every statement. -/

namespace Sys2Proof.Tests

open Sys2Proof.Machine

/-! ## Well-formedness

One ill-formed term for each check of `Instr.wellFormed`, which refuses it, beside the well-formed one. -/

theorem test_wellFormed_ok :
    ([.movImm .al true 0 1 0 1, .undMul .al 0x0400090, .bx .al 0xFFF 0, .tBx true 7 0, .tSwi 0] : List Instr).all
      Instr.wellFormed = true := by decide

/-- An undefined instruction outside its row (R140). -/
theorem test_wellFormed_undefined_row :
    ([.undMul .al 0x0400080, .undMisc1 .al 0, .undMisc23 .al 0, .undMisc45 .al 0, .undMiscHigh .al 0, .undSwapOdd .al 0,
      .undSwapW .al 0, .undMisc1Row16 .al 0, .undSwapHigh .al 0, .undPsrImm .al 0, .undMedia .al 0] : List Instr).all
      (fun i => !i.encodable && !i.wellFormed) = true := by decide

/-- A space the architecture does not define (R329, R503). -/
theorem test_wellFormed_unallocated :
    ([.reservedLsh10Reg .al true true false 0 0 0 0, .reservedLsh10Imm .al true true false 0 0 0 0,
      .reservedLsh11Reg .al true true false 0 0 0 0, .reservedLsh11Imm .al true true false 0 0 0 0,
      .tBxH1 true 7 0] : List Instr).all (fun i => !i.allocated && !i.wellFormed) = true := by decide

/-- The condition NV (R187). -/
theorem test_wellFormed_never : (Instr.b .nv 0).wellFormed = false ∧ (Instr.b .al 0).wellFormed = true := by decide

/-- An SBZ field that is not 0 (R164). -/
theorem test_wellFormed_sbz :
    ([.tstImm .al 0 1 0 0, .tstShift .al 0 8 0 .lsl 0, .tstRegShift .al 0 1 0 .lsl 0, .teqImm .al 0 1 0 0,
      .teqShift .al 0 1 0 .lsl 0, .teqRegShift .al 0 1 0 .lsl 0, .cmpImm .al 0 15 0 0, .cmpShift .al 0 1 0 .lsl 0,
      .cmpRegShift .al 0 1 0 .lsl 0, .cmnImm .al 0 1 0 0, .cmnShift .al 0 1 0 .lsl 0, .cmnRegShift .al 0 1 0 .lsl 0,
      .movImm .al true 1 0 0 0, .movShift .al true 1 0 0 .lsl 0, .movRegShift .al true 1 0 0 .lsl 0,
      .mvnImm .al true 1 0 0 0, .mvnShift .al true 1 0 0 .lsl 0, .mvnRegShift .al true 1 0 0 .lsl 0,
      .mrs .al false 15 0 1 0, .mrs .al false 15 0 0 1, .msrReg .al false 9 15 1 0, .mul .al false 0 1 0 0,
      .swp .al 0 0 1 0, .swpb .al 0 0 1 0, .strhReg .al true true false 0 0 1 0, .ldrhReg .al true true false 0 0 1 0,
      .ldrsbReg .al true true false 0 0 1 0, .ldrshReg .al true true false 0 0 1 0, .tBx false 0 1] : List Instr).all
      (fun i => !i.fixedFieldsOk && !i.wellFormed) = true := by decide

/-- An SBO field that is not all ones (R164). -/
theorem test_wellFormed_sbo :
    ([.mrs .al false 14 0 0 0, .msrReg .al false 9 7 0 0, .msrImm .al false 8 0 0 0, .bx .al 0xFFE 0] : List Instr).all
      (fun i => !i.fixedFieldsOk && !i.wellFormed) = true := by decide

/-! ## Decoding

Every constructor, by a word laid out field by field from the encoding of its row (bit 31 or bit 15 first). -/

/-- Every word decodes to the instruction beside it. -/
def decodesTo (nbits : Nat) (words : List (Nat × Instr)) : Bool :=
  words.all fun x => decide (decodeTableWord nbits x.1 = some x.2)

theorem test_decode_data_processing_imm : decodesTo 32 [
    (0b1110_0010000_1_1101_0010_0111_01010110, .andImm .al true 13 2 7 86),
    (0b1110_0010001_0_0010_0111_1100_01101001, .eorImm .al false 2 7 12 105),
    (0b1110_0010010_1_0111_1100_0001_01111100, .subImm .al true 7 12 1 124),
    (0b1110_0010011_0_1100_0001_0110_10001111, .rsbImm .al false 12 1 6 143),
    (0b1110_0010100_1_0001_0110_1011_10100010, .addImm .al true 1 6 11 162),
    (0b1110_0010101_0_0110_1011_0000_10110101, .adcImm .al false 6 11 0 181),
    (0b1110_0010110_1_1011_0000_0101_11001000, .sbcImm .al true 11 0 5 200),
    (0b1110_0010111_0_0000_0101_1010_11011011, .rscImm .al false 0 5 10 219),
    (0b1110_00110001_0000_0000_0101_01111100, .tstImm .al 0 0 5 124),
    (0b1110_00110011_0101_0000_1010_10001111, .teqImm .al 5 0 10 143),
    (0b1110_00110101_1010_0000_1111_10100010, .cmpImm .al 10 0 15 162),
    (0b1110_00110111_1111_0000_0100_10110101, .cmnImm .al 15 0 4 181),
    (0b1110_0011100_1_1001_1110_0011_00111010, .orrImm .al true 9 14 3 58),
    (0b1110_0011101_0_0000_1110_0011_10010100, .movImm .al false 0 14 3 148),
    (0b1110_0011110_1_0011_1000_1101_01100000, .bicImm .al true 3 8 13 96),
    (0b1110_0011111_0_0000_1000_1101_10111010, .mvnImm .al false 0 8 13 186)] = true := by decide

theorem test_decode_data_processing_shift : decodesTo 32 [
    (0b0110_0000000_0_0100_1001_11110_01_0_1000, .andShift .vs false 4 9 30 .lsr 8),
    (0b0111_0000001_1_1001_1110_10011_00_0_1101, .eorShift .vc true 9 14 19 .lsl 13),
    (0b1000_0000010_0_1110_0011_01000_11_0_0010, .subShift .hi false 14 3 8 .ror 2),
    (0b1001_0000011_1_0011_1000_11101_10_0_0111, .rsbShift .ls true 3 8 29 .asr 7),
    (0b1010_0000100_0_1000_1101_10010_01_0_1100, .addShift .ge false 8 13 18 .lsr 12),
    (0b1011_0000101_1_1101_0010_00111_00_0_0001, .adcShift .lt true 13 2 7 .lsl 1),
    (0b1100_0000110_0_0010_0111_11100_11_0_0110, .sbcShift .gt false 2 7 28 .ror 6),
    (0b1101_0000111_1_0111_1100_10001_10_0_1011, .rscShift .le true 7 12 17 .asr 11),
    (0b0000_00010001_0111_0000_11100_01_0_0110, .tstShift .eq 7 0 28 .lsr 6),
    (0b0001_00010011_1100_0000_10001_00_0_1011, .teqShift .ne 12 0 17 .lsl 11),
    (0b0010_00010101_0001_0000_00110_11_0_0000, .cmpShift .cs 1 0 6 .ror 0),
    (0b0011_00010111_0110_0000_11011_10_0_0101, .cmnShift .cc 6 0 27 .asr 5),
    (0b0100_0001100_0_0000_0101_11010_01_0_0100, .orrShift .mi false 0 5 26 .lsr 4),
    (0b0101_0001101_1_0000_0101_01010_00_0_0100, .movShift .pl true 0 5 10 .lsl 4),
    (0b0110_0001110_0_1010_1111_00100_11_0_1110, .bicShift .vs false 10 15 4 .ror 14),
    (0b0111_0001111_1_0000_1111_10100_10_0_1110, .mvnShift .vc true 0 15 20 .asr 14)] = true := by decide

theorem test_decode_data_processing_reg_shift : decodesTo 32 [
    (0b1011_0000000_1_1011_0000_0101_0_10_1_1111, .andRegShift .lt true 11 0 5 .asr 15),
    (0b1100_0000001_0_0000_0101_1010_0_01_1_0100, .eorRegShift .gt false 0 5 10 .lsr 4),
    (0b1101_0000010_1_0101_1010_1111_0_00_1_1001, .subRegShift .le true 5 10 15 .lsl 9),
    (0b0000_0000011_0_1010_1111_0100_0_11_1_1110, .rsbRegShift .eq false 10 15 4 .ror 14),
    (0b0001_0000100_1_1111_0100_1001_0_10_1_0011, .addRegShift .ne true 15 4 9 .asr 3),
    (0b0010_0000101_0_0100_1001_1110_0_01_1_1000, .adcRegShift .cs false 4 9 14 .lsr 8),
    (0b0011_0000110_1_1001_1110_0011_0_00_1_1101, .sbcRegShift .cc true 9 14 3 .lsl 13),
    (0b0100_0000111_0_1110_0011_1000_0_11_1_0010, .rscRegShift .mi false 14 3 8 .ror 2),
    (0b0101_00010001_1110_0000_0011_0_10_1_1101, .tstRegShift .pl 14 0 3 .asr 13),
    (0b0110_00010011_0011_0000_1000_0_01_1_0010, .teqRegShift .vs 3 0 8 .lsr 2),
    (0b0111_00010101_1000_0000_1101_0_00_1_0111, .cmpRegShift .vc 8 0 13 .lsl 7),
    (0b1000_00010111_1101_0000_0010_0_11_1_1100, .cmnRegShift .hi 13 0 2 .ror 12),
    (0b1001_0001100_1_0111_1100_0001_0_10_1_1011, .orrRegShift .ls true 7 12 1 .asr 11),
    (0b1010_0001101_0_0000_1100_0001_0_01_1_1011, .movRegShift .ge false 0 12 1 .lsr 11),
    (0b1011_0001110_1_0001_0110_1011_0_00_1_0101, .bicRegShift .lt true 1 6 11 .lsl 5),
    (0b1100_0001111_0_0000_0110_1011_0_11_1_0101, .mvnRegShift .gt false 0 6 11 .ror 5)] = true := by decide

theorem test_decode_psr : decodesTo 32 [
    (0b1110_00010_1_001111_1101_000000000000, .mrs .al true 15 13 0 0),
    (0b1000_00010_0_10_0100_111100000000_1001, .msrReg .hi false 4 15 0 9),
    (0b1101_00110_1_10_1011_1111_0000_00101111, .msrImm .le true 11 15 0 47)] = true := by decide

theorem test_decode_multiply : decodesTo 32 [
    (0b1110_0000000_0_0010_0000_0111_1001_1100, .mul .al false 2 0 7 12),
    (0b1001_0000001_1_1001_1110_0011_1001_1000, .mla .ls true 9 14 3 8),
    (0b0000_0000100_0_0000_0101_1010_1001_1111, .umull .eq false 0 5 10 15),
    (0b1110_0000101_1_0111_1100_0001_1001_0110, .umlal .al true 7 12 1 6),
    (0b1010_0000110_0_1110_0011_1000_1001_1101, .smull .ge false 14 3 8 13),
    (0b0001_0000111_1_0101_1010_1111_1001_0100, .smlal .ne true 5 10 15 4)] = true := by decide

theorem test_decode_swap_branch : decodesTo 32 [
    (0b1110_00010000_0111_1100_00001001_0001, .swp .al 7 12 0 1),
    (0b1011_00010100_1110_0011_00001001_1000, .swpb .lt 14 3 0 8),
    (0b0010_000100101111111111110001_0101, .bx .cs 0xfff 5),
    (0b0111_1010_100100100001011110100110, .b .vc 0x9217a6),
    (0b1110_1011_110010011001000101010111, .bl .al 0xc99157),
    (0b0011_1111_000000010000101100001000, .swi .cc 0x10b08)] = true := by decide

theorem test_decode_single : decodesTo 32 [
    (0b1110_0101_1_0_0_0_0110_1011_111111010010, .strImmPre .al true false 6 11 0xfd2),
    (0b1100_0100_0_000_1000_1101_111111001010, .strImmPost .gt false 8 13 0xfca),
    (0b0011_0111_1_0_0_0_0100_1001_01110_10_0_1000, .strRegPre .cc true false 4 9 14 .asr 8),
    (0b1110_0110_0_000_0110_1011_10000_11_0_1010, .strRegPost .al false 6 11 16 .ror 10),
    (0b1101_0101_1_1_0_0_0010_0111_011010010110, .strbImmPre .le true false 2 7 0x696),
    (0b0100_0100_0_100_0100_1001_011010001110, .strbImmPost .mi false 4 9 0x68e),
    (0b1110_0111_1_1_0_0_0000_0101_01010_10_0_0100, .strbRegPre .al true false 0 5 10 .asr 4),
    (0b0000_0110_0_100_0010_0111_01100_11_0_0110, .strbRegPost .eq false 2 7 12 .ror 6),
    (0b0101_0101_1_0_0_1_1110_0011_110101011010, .ldrImmPre .pl true false 14 3 0xd5a),
    (0b1110_0100_0_001_0000_0101_110101010010, .ldrImmPost .al false 0 5 0xd52),
    (0b0001_0111_1_0_0_1_1100_0001_00110_10_0_0000, .ldrRegPre .ne true false 12 1 6 .asr 0),
    (0b0110_0110_0_001_1110_0011_01000_11_0_0010, .ldrRegPost .vs false 14 3 8 .ror 2),
    (0b1110_0101_1_1_0_1_1010_1111_010000011110, .ldrbImmPre .al true false 10 15 0x41e),
    (0b0010_0100_0_101_1100_0001_010000010110, .ldrbImmPost .cs false 12 1 0x416),
    (0b0111_0111_1_1_0_1_1000_1101_00010_10_0_1100, .ldrbRegPre .vc true false 8 13 2 .asr 12),
    (0b1110_0110_0_101_1010_1111_00100_11_0_1110, .ldrbRegPost .al false 10 15 4 .ror 14)] = true := by decide

theorem test_decode_single_t : decodesTo 32 [
    (0b0011_0100_1_010_0001_0110_000100101001, .strtImm .cc true 1 6 0x129),
    (0b1000_0110_0_010_1000_1101_10010_01_0_1100, .strtReg .hi false 8 13 18 .lsr 12),
    (0b1110_0100_1_110_1111_0100_010010001011, .strbtImm .al true 15 4 0x48b),
    (0b0100_0110_0_110_0110_1011_00000_11_0_1010, .strbtReg .mi false 6 11 0 .ror 10),
    (0b1001_0100_1_011_1101_0010_011111101101, .ldrtImm .ls true 13 2 0x7ed),
    (0b1110_0110_0_011_0100_1001_01110_01_0_1000, .ldrtReg .al false 4 9 14 .lsr 8),
    (0b0101_0100_1_111_1011_0000_101101001111, .ldrbtImm .pl true 11 0 0xb4f),
    (0b1010_0110_0_111_0010_0111_11100_11_0_0110, .ldrbtReg .ge false 2 7 28 .ror 6)] = true := by decide

theorem test_decode_halfword : decodesTo 32 [
    (0b1110_000_1_0_0_1_0_0011_1000_00001011_1101, .strhReg .al true false true 3 8 0 13),
    (0b0110_000_0_1_1_0_0_1010_1111_0100_1011_1001, .strhImm .vs false true false 10 15 4 9),
    (0b1011_000_1_0_0_1_1_0001_0110_00001011_1011, .ldrhReg .lt true false true 1 6 0 11),
    (0b1110_000_0_1_1_0_1_1000_1101_0010_1011_0111, .ldrhImm .al false true false 8 13 2 7),
    (0b0111_000_1_0_0_1_1_1111_0100_00001101_1001, .ldrsbReg .vc true false true 15 4 0 9),
    (0b1100_000_0_1_1_0_1_0110_1011_0000_1101_0101, .ldrsbImm .gt false true false 6 11 0 5),
    (0b1110_000_1_0_0_1_1_1101_0010_00001111_0111, .ldrshReg .al true false true 13 2 0 7),
    (0b1000_000_0_1_1_0_1_0100_1001_1110_1111_0011, .ldrshImm .hi false true false 4 9 14 3)] = true := by decide

theorem test_decode_reserved : decodesTo 32 [
    (0b1101_000_1_0_0_1_0_1011_0000_0101_1101_1010, .reservedLsh10Reg .le true false true 11 0 5 10),
    (0b1110_000_0_1_1_0_0_0010_0111_1100_1101_0001, .reservedLsh10Imm .al false true false 2 7 12 1),
    (0b1001_000_1_0_0_1_0_1001_1110_0011_1111_1000, .reservedLsh11Reg .ls true false true 9 14 3 8),
    (0b0000_000_0_1_1_0_0_0000_0101_1010_1111_1111, .reservedLsh11Imm .eq false true false 0 5 10 15)] = true := by decide

theorem test_decode_block : decodesTo 32 [
    (0b1110_100000_1_0_1101_1000100101000100, .stmda .al true 13 0x8944),
    (0b1010_100010_0_0_0100_0000001011110101, .stmia .ge false 4 0x2f5),
    (0b0001_100100_1_0_1011_0111110010100110, .stmdb .ne true 11 0x7ca6),
    (0b1110_100110_0_0_0010_1111011001010111, .stmib .al false 2 0xf657),
    (0b1011_100000_1_1_1001_0111000000001000, .ldmda .lt true 9 0x7008),
    (0b0010_100010_0_1_0000_1110100110111001, .ldmia .cs false 0 0xe9b9),
    (0b1110_100100_1_1_0111_0110001101101010, .ldmdb .al true 7 0x636a),
    (0b1100_100110_0_1_1110_1101110100011011, .ldmib .gt false 14 0xdd1b),
    (0b0011_100001_0_0_0101_0101011011001100, .stmdaUser .cc false 5 0x56cc),
    (0b1110_100011_0_0_1100_1101000001111101, .stmiaUser .al false 12 0xd07d),
    (0b1101_100101_1_0_0011_0100101000101110, .stmdbUser .le true 3 0x4a2e),
    (0b0100_100111_1_0_1010_1100001111011111, .stmibUser .mi true 10 0xc3df),
    (0b1110_100001_0_1_0001_0_011110110010000, .ldmdaUser .al false 1 0x3d90),
    (0b0000_100011_0_1_1000_0_011011101000001, .ldmiaUser .eq false 8 0x3741),
    (0b0101_100101_1_1_1111_0_011000011110010, .ldmdbUser .pl true 15 0x30f2),
    (0b1110_100111_1_1_0110_0_010101010100011, .ldmibUser .al true 6 0x2aa3),
    (0b0001_100001_0_1_1101_1_010010001010100, .ldmdaRet .ne false 13 0x2454),
    (0b0110_100011_0_1_0100_1_001111000000101, .ldmiaRet .vs false 4 0x1e05),
    (0b1110_100101_1_1_1011_1_001011110110110, .ldmdbRet .al true 11 0x17b6),
    (0b0010_100111_1_1_0010_1_001000101100111, .ldmibRet .cs true 2 0x1167)] = true := by decide

theorem test_decode_coprocessor : decodesTo 32 [
    (0b1000_1110_1001_1110_0011_1000_101_0_0010, .cdp .hi 9 14 3 8 5 2),
    (0b1110_110_1_0_1_0_1_0100_1001_1110_01111001, .ldc .al true false true false 4 9 14 121),
    (0b0100_110_0_1_0_1_0_1011_0000_0101_00101010, .stc .mi false true false true 11 0 5 42),
    (0b1001_1110_110_0_0011_1000_1101_010_1_0111, .mcr .ls 6 3 8 13 2 7),
    (0b1110_1110_101_1_1010_1111_0100_001_1_1110, .mrc .al 5 10 15 4 1 14)] = true := by decide

theorem test_decode_undefined : decodesTo 32 [
    (0b0101_0000010111000011101010011100, .undMul .pl 0x5c3a9c),
    (0b1010_0001010011000011101000011100, .undMisc1 .ge 0x14c3a1c),
    (0b1110_0001010011000011101001111100, .undMisc23 .al 0x14c3a7c),
    (0b0110_0001010011000011101001011100, .undMisc45 .vs 0x14c3a5c),
    (0b1011_0001010011000011101011001100, .undMiscHigh .lt 0x14c3acc),
    (0b1110_0001010111000011101010011100, .undSwapOdd .al 0x15c3a9c),
    (0b0111_0001011011000011101010011100, .undSwapW .vc 0x16c3a9c),
    (0b1100_0001011011000011101000011100, .undMisc1Row16 .gt 0x16c3a1c),
    (0b1110_0001110011000011101010011100, .undSwapHigh .al 0x1cc3a9c),
    (0b1000_0011010011000011101001011100, .undPsrImm .hi 0x34c3a5c),
    (0b1101_0110010111000011101001011100, .undMedia .le 0x65c3a5c)] = true := by decide

theorem test_decode_thumb_1_3 : decodesTo 16 [
    (0b00000_10100_001_110, .tLslImm 20 1 6),
    (0b00001_11011_000_101, .tLsrImm 27 0 5),
    (0b00010_00010_111_100, .tAsrImm 2 7 4),
    (0b0001100_001_110_011, .tAddReg 1 6 3),
    (0b0001101_000_101_010, .tSubReg 0 5 2),
    (0b0001110_111_100_001, .tAddImm3 7 4 1),
    (0b0001111_110_011_000, .tSubImm3 6 3 0),
    (0b00100_101_10100000, .tMovImm8 5 160),
    (0b00101_100_01010001, .tCmpImm8 4 81),
    (0b00110_011_00000010, .tAddImm8 3 2),
    (0b00111_010_10110011, .tSubImm8 2 179)] = true := by decide

theorem test_decode_thumb_4 : decodesTo 16 [
    (0b0100000000_001_110, .tAnd 1 6),
    (0b0100000001_000_101, .tEor 0 5),
    (0b0100000010_111_100, .tLsl 7 4),
    (0b0100000011_110_011, .tLsr 6 3),
    (0b0100000100_101_010, .tAsr 5 2),
    (0b0100000101_100_001, .tAdc 4 1),
    (0b0100000110_011_000, .tSbc 3 0),
    (0b0100000111_010_111, .tRor 2 7),
    (0b0100001000_001_110, .tTst 1 6),
    (0b0100001001_000_101, .tNeg 0 5),
    (0b0100001010_111_100, .tCmp 7 4),
    (0b0100001011_110_011, .tCmn 6 3),
    (0b0100001100_101_010, .tOrr 5 2),
    (0b0100001101_100_001, .tMul 4 1),
    (0b0100001110_011_000, .tBic 3 0),
    (0b0100001111_010_111, .tMvn 2 7)] = true := by decide

theorem test_decode_thumb_5 : decodesTo 16 [
    (0b01000100_0_1_011_000, .tAddHi false true 3 0),
    (0b01000101_1_0_010_111, .tCmpHi true false 2 7),
    (0b01000110_0_1_001_110, .tMovHi false true 1 6),
    (0b010001110_1_011_000, .tBx true 3 0),
    (0b010001111_0_010_000, .tBxH1 false 2 0)] = true := by decide

theorem test_decode_thumb_6_11 : decodesTo 16 [
    (0b01001_100_11101001, .tLdrPc 4 233),
    (0b0101000_011_000_101, .tStrReg 3 0 5),
    (0b0101001_010_111_100, .tStrhReg 2 7 4),
    (0b0101010_001_110_011, .tStrbReg 1 6 3),
    (0b0101011_000_101_010, .tLdsbReg 0 5 2),
    (0b0101100_111_100_001, .tLdrReg 7 4 1),
    (0b0101101_110_011_000, .tLdrhReg 6 3 0),
    (0b0101110_101_010_111, .tLdrbReg 5 2 7),
    (0b0101111_100_001_110, .tLdshReg 4 1 6),
    (0b01100_10011_000_101, .tStrImm 19 0 5),
    (0b01101_11010_111_100, .tLdrImm 26 7 4),
    (0b01110_00001_110_011, .tStrbImm 1 6 3),
    (0b01111_01000_101_010, .tLdrbImm 8 5 2),
    (0b10000_01111_100_001, .tStrhImm 15 4 1),
    (0b10001_10110_011_000, .tLdrhImm 22 3 0),
    (0b10010_101_01001000, .tStrSp 5 72),
    (0b10011_100_11111001, .tLdrSp 4 249)] = true := by decide

theorem test_decode_thumb_12_15 : decodesTo 16 [
    (0b10100_011_10101010, .tAddPc 3 170),
    (0b10101_010_01011011, .tAddSp 2 91),
    (0b101100000_0011001, .tIncSp 25),
    (0b101100001_0100000, .tDecSp 32),
    (0b1011010_0_01101110, .tPush false 110),
    (0b1011110_1_00011111, .tPop true 31),
    (0b11000_101_11010000, .tStmia 5 208),
    (0b11001_100_10000001, .tLdmia 4 129)] = true := by decide

theorem test_decode_thumb_16_19 : decodesTo 16 [
    (0b11010000_01111001, .tBeq 121),
    (0b11010001_00101010, .tBne 42),
    (0b11010010_11011011, .tBcs 219),
    (0b11010011_10001100, .tBcc 140),
    (0b11010100_00111101, .tBmi 61),
    (0b11010101_11101110, .tBpl 238),
    (0b11010110_10011111, .tBvs 159),
    (0b11010111_01010000, .tBvc 80),
    (0b11011000_00000001, .tBhi 1),
    (0b11011001_10110010, .tBls 178),
    (0b11011010_01100011, .tBge 99),
    (0b11011011_00010100, .tBlt 20),
    (0b11011100_11000101, .tBgt 197),
    (0b11011101_01110110, .tBle 118),
    (0b11011111_00100111, .tSwi 39),
    (0b11100_11111011000, .tB 0x7d8),
    (0b11110_00110001001, .tBlHigh 0x189),
    (0b11111_01100111010, .tBlLow 0x33a)] = true := by decide

theorem test_decode_thumb_undefined : decodesTo 16 [
    (0b1011000101011010, .tUndB1 90),
    (0b1011001001011010, .tUndB2 90),
    (0b1011011001011010, .tUndB6 90),
    (0b1011101001011010, .tUndB8 0x25a),
    (0b1011111001011010, .tUndBe 90),
    (0b1101111001011010, .tUndDe 90),
    (0b1110101001011010, .tUndE8 0x25a)] = true := by decide

/-- Too few bytes are rejected by name (R120). -/
theorem test_decode_truncated :
    decodeBytes false [1, 2, 3] = .error .truncatedArm ∧ decodeBytes true [1] = .error .truncatedThumb := by decide

/-! ## Small states -/

/-- A state whose next instruction is the one at `a`, with this CPSR and these registers and the policy `fault`. -/
def start (a cpsr : Word) (rs : List (RegNum × Word)) : State :=
  let p := Psr.ofWord cpsr
  let s : State := { State.reset with
    params := { Params.default with unpred := .fault }
    cpsr := p
    pc := if p.t then a + 4 else a + 8 }
  rs.foldl (fun s r => s.writeReg r.1 r.2) s

/-- The state with a value of a width in memory. -/
def put (s : State) (a : Word) (w : Width) (v : Word) : State := { s with mem := s.mem.store a v w }

/-- The state under `UNPRED_POLICY = implement`. -/
def lenient (s : State) : State := { s with params := { s.params with unpred := .implement } }

/-- The state with `STORE_PC_OFFSET = 8`. -/
def storesPc8 (s : State) : State := { s with params := { s.params with storePcOffset := 8 } }

/-- The state with `ADC_V_RULE = two_stage_or`. -/
def twoStage (s : State) : State := { s with params := { s.params with adcV := .twoStageOr } }

/-- One step of the state with the opcode placed answers a next state that passes a check. -/
def runs (s : State) (nbits w : Nat) (ok : State → Bool) : Bool :=
  match step (s.withFetchWord nbits w) with
  | .next t => ok t
  | .fault _ => false
  | .refused _ => false

/-- One step of the state with the opcode placed stops with an UNPREDICTABLE case. -/
def stopsAt (s : State) (nbits w : Nat) (u : UCase) : Bool :=
  match step (s.withFetchWord nbits w) with
  | .fault f => f == .unpredictable u s.instrAddr
  | .next _ => false
  | .refused _ => false

/-- Registers hold these values. -/
def holds (t : State) (rs : List (RegNum × Word)) : Bool := rs.all fun r => t.readReg r.1 == r.2

/-- The next instruction is the one at `a`, and the step took `k` cycles. -/
def ended (t : State) (a : Word) (k : Nat) : Bool := t.instrAddr == a && t.cycles == k && t.totalCycles == 2 + k

/-! ## One step of the test vectors -/

/-! Vectors SH of spec/95_test_vectors.md: the barrel shifter. -/

theorem test_movs_sh1 : runs (start 0x8000 0x1f []) 32 0xE3B004FF (fun t =>
    holds t [(0, 0xff000000)] && t.cpsr.toWord == 0xa000001f && ended t 0x8004 1) = true := by decide

theorem test_movs_sh2 : runs (start 0x8000 0x2000001f []) 32 0xE3B00001 (fun t =>
    holds t [(0, 1)] && t.cpsr.toWord == 0x2000001f && ended t 0x8004 1) = true := by decide

theorem test_movs_sh8 : runs (start 0x8000 0x2000001f [(1, 3)]) 32 0xE1B00061 (fun t =>
    holds t [(0, 0x80000001)] && t.cpsr.toWord == 0xa000001f && ended t 0x8004 1) = true := by decide

theorem test_movs_sh10 : runs (start 0x8000 0x2000001f [(1, 1), (2, 0x100)]) 32 0xE1B00211 (fun t =>
    holds t [(0, 1)] && t.cpsr.toWord == 0x2000001f && ended t 0x8004 2) = true := by decide

theorem test_movs_sh11 : runs (start 0x8000 0x1f [(1, 0x80000001), (2, 0x40)]) 32 0xE1B00271 (fun t =>
    holds t [(0, 0x80000001)] && t.cpsr.toWord == 0xa000001f && ended t 0x8004 2) = true := by decide

/-! Vectors DP of spec/95_test_vectors.md: data processing. -/

theorem test_adds_dp1 : runs (start 0x8000 0x1f [(1, 0xffffffff), (2, 0xffffffff)]) 32 0xE0910002 (fun t =>
    holds t [(0, 0xfffffffe)] && t.cpsr.toWord == 0xa000001f && ended t 0x8004 1) = true := by decide

theorem test_adds_dp2 : runs (start 0x8000 0x1f [(1, 0x80000000), (2, 0x80000000)]) 32 0xE0910002 (fun t =>
    t.cpsr.toWord == 0x7000001f && ended t 0x8004 1) = true := by decide

theorem test_subs_dp3 : runs (start 0x8000 0x1f [(1, 0), (2, 1)]) 32 0xE0510002 (fun t =>
    holds t [(0, 0xffffffff)] && t.cpsr.toWord == 0x8000001f && ended t 0x8004 1) = true := by decide

theorem test_subs_dp4 : runs (start 0x8000 0x1f [(1, 0x80000000), (2, 1)]) 32 0xE0510002 (fun t =>
    holds t [(0, 0x7fffffff)] && t.cpsr.toWord == 0x3000001f && ended t 0x8004 1) = true := by decide

theorem test_rsbs_dp5 : runs (start 0x8000 0x1f [(1, 0x80000000)]) 32 0xE2710000 (fun t =>
    holds t [(0, 0x80000000)] && t.cpsr.toWord == 0x9000001f && ended t 0x8004 1) = true := by decide

theorem test_adcs_dp6 : runs (start 0x8000 0x2000001f [(4, 0x80000000), (5, 0xffffffff)]) 32 0xE0B44005 (fun t =>
    t.cpsr.toWord == 0xa000001f && ended t 0x8004 1) = true := by decide

theorem test_adcs_dp7 : runs (twoStage (start 0x8000 0x2000001f [(4, 0x80000000), (5, 0xffffffff)])) 32 0xE0B44005 (fun t =>
    t.cpsr.toWord == 0xb000001f && ended t 0x8004 1) = true := by decide

theorem test_sbcs_dp9 : runs (start 0x8000 0x1f [(1, 0x7fffffff), (2, 0xffffffff)]) 32 0xE0D10002 (fun t =>
    holds t [(0, 0x7fffffff)] && t.cpsr.toWord == 0x1f && ended t 0x8004 1) = true := by decide

theorem test_sbcs_dp10 : runs (start 0x8000 0x2000001f [(1, 0), (2, 0)]) 32 0xE0D10002 (fun t =>
    t.cpsr.toWord == 0x6000001f && ended t 0x8004 1) = true := by decide

theorem test_rscs_dp12 : runs (start 0x8000 0x1f [(1, 0)]) 32 0xE2F10000 (fun t =>
    holds t [(0, 0xffffffff)] && t.cpsr.toWord == 0x8000001f && ended t 0x8004 1) = true := by decide

theorem test_cmp_dp13 : runs (start 0x8000 0x1f [(0, 0x80000000)]) 32 0xE3500001 (fun t =>
    t.cpsr.toWord == 0x3000001f && ended t 0x8004 1) = true := by decide

theorem test_cmn_dp14 : runs (start 0x8000 0x1f [(0, 0x7fffffff)]) 32 0xE3700001 (fun t =>
    t.cpsr.toWord == 0x9000001f && ended t 0x8004 1) = true := by decide

theorem test_tst_dp15 : runs (start 0x8000 0x1000001f [(0, 0x80000000)]) 32 0xE3100102 (fun t =>
    t.cpsr.toWord == 0xb000001f && ended t 0x8004 1) = true := by decide

theorem test_teq_dp16 : runs (start 0x8000 0x1f [(0, 5)]) 32 0xE1300000 (fun t =>
    t.cpsr.toWord == 0x4000001f && ended t 0x8004 1) = true := by decide

theorem test_ands_dp17 : runs (start 0x8000 0x1f [(0, 0xff), (1, 3)]) 32 0xE01000A1 (fun t =>
    holds t [(0, 1)] && t.cpsr.toWord == 0x2000001f && ended t 0x8004 1) = true := by decide

theorem test_eors_dp18 : runs (start 0x8000 0xb000001f [(0, 0x1234)]) 32 0xE0300000 (fun t =>
    holds t [(0, 0)] && t.cpsr.toWord == 0x7000001f && ended t 0x8004 1) = true := by decide

theorem test_orrs_dp19 : runs (start 0x8000 0x1f [(1, 1)]) 32 0xE3910102 (fun t =>
    holds t [(0, 0x80000001)] && t.cpsr.toWord == 0xa000001f && ended t 0x8004 1) = true := by decide

theorem test_bics_dp20 : runs (start 0x8000 0x1f [(0, 0xff)]) 32 0xE3D000FF (fun t =>
    holds t [(0, 0)] && t.cpsr.toWord == 0x4000001f && ended t 0x8004 1) = true := by decide

theorem test_mvns_dp21 : runs (start 0x8000 0x1f [(1, 0xffffffff)]) 32 0xE1F00001 (fun t =>
    t.cpsr.toWord == 0x4000001f && ended t 0x8004 1) = true := by decide

theorem test_add_dp23 : runs (lenient (start 0x8000 0x1f [(1, 0), (2, 0)])) 32 0xE08F0211 (fun t =>
    holds t [(0, 0x800c)] && t.cpsr.toWord == 0x1f && ended t 0x8004 2) = true := by decide

theorem test_movs_dp25 : runs ((start 0x8000 0x13 [(14, 0x9000)]).hostWriteSpsr .svc 0x30) 32 0xE1B0F00E (fun t =>
    t.cpsr.toWord == 0x30 && ended t 0x9000 3) = true := by decide

theorem test_addeq_dp27 : runs (start 0x8000 0x1f [(0, 7)]) 32 0x02800001 (fun t =>
    t.cpsr.toWord == 0x1f && ended t 0x8004 1) = true := by decide

theorem test_add_dp28 : stopsAt (start 0x8000 0x1f [(0, 7)]) 32 0xF2800001 .u1 = true := by decide

theorem test_sub_dp29 : runs (start 0x8000 0x1f [(0, 0)]) 32 0xE2400001 (fun t =>
    holds t [(0, 0xffffffff)] && t.cpsr.toWord == 0x1f && ended t 0x8004 1) = true := by decide

/-! Vectors PS of spec/95_test_vectors.md: PSR transfer. -/

theorem test_mrs_ps1 : runs (start 0x8000 0x9000001f []) 32 0xE10F0000 (fun t =>
    holds t [(0, 0x9000001f)] && t.cpsr.toWord == 0x9000001f && ended t 0x8004 1) = true := by decide

theorem test_mrs_ps2 : runs ((start 0x8000 0x12 []).hostWriteSpsr .irq 0x600000d3) 32 0xE14F0000 (fun t =>
    holds t [(0, 0x600000d3)] && t.cpsr.toWord == 0x12 && ended t 0x8004 1) = true := by decide

theorem test_msr_ps3 : runs (start 0x8000 0x10 [(0, 0x1f)]) 32 0xE121F000 (fun t =>
    t.cpsr.toWord == 0x10 && ended t 0x8004 1) = true := by decide

theorem test_msr_ps4 : runs (start 0x8000 0x13 [(0, 0xf0000011)]) 32 0xE129F000 (fun t =>
    t.cpsr.toWord == 0xf0000011 && ended t 0x8004 1) = true := by decide

theorem test_msr_ps6 : runs (start 0x8000 0x10 []) 32 0xE328F20F (fun t =>
    t.cpsr.toWord == 0xf0000010 && ended t 0x8004 1) = true := by decide

/-! Vectors LS of spec/95_test_vectors.md: single transfers and swap. -/

theorem test_ldr_ls1 : runs (put (start 0x8000 0x1f [(1, 0x1000)]) 0x1000 .word 0x9000) 32 0xE591F000 (fun t =>
    t.cpsr.toWord == 0x1f && ended t 0x9000 5) = true := by decide

theorem test_str_ls2 : runs (start 0x8000 0x1f [(1, 0x1000)]) 32 0xE581F000 (fun t =>
    t.mem.load 0x1000 .word == 0x800c && t.cpsr.toWord == 0x1f && ended t 0x8004 2) = true := by decide

theorem test_str_ls3 : runs (storesPc8 (start 0x8000 0x1f [(1, 0x1000)])) 32 0xE581F000 (fun t =>
    t.mem.load 0x1000 .word == 0x8008 && t.cpsr.toWord == 0x1f && ended t 0x8004 2) = true := by decide

theorem test_ldrb_ls4 : runs (put (start 0x8000 0x1f [(1, 0x1003), (2, 3)]) 0x1000 .word 0x11223344) 32 0xE6510002 (fun t =>
    holds t [(0, 0x11), (1, 0x1000)] && t.cpsr.toWord == 0x1f && ended t 0x8004 3) = true := by decide

theorem test_ldr_ls5 : runs (put (start 0x8000 0x1f [(1, 0x1006)]) 0x1000 .word 0x11223344) 32 0xE5310004 (fun t =>
    holds t [(0, 0x33441122), (1, 0x1002)] && t.cpsr.toWord == 0x1f && ended t 0x8004 3) = true := by decide

theorem test_ldr_ls6 : runs (put (start 0x8000 0x1f [(1, 0x1004), (2, 0x80000000)]) 0x1000 .word 0x55) 32 0xE7910042 (fun t =>
    holds t [(0, 0x5500)] && t.cpsr.toWord == 0x1f && ended t 0x8004 3) = true := by decide

theorem test_str_ls7 : runs (start 0x8000 0x1f [(0, 0xab), (1, 0x1000)]) 32 0xE4810004 (fun t =>
    holds t [(1, 0x1004)] && t.mem.load 0x1000 .word == 0xab && t.cpsr.toWord == 0x1f && ended t 0x8004 2) = true := by decide

theorem test_ldr_ls8 : runs (lenient (put (start 0x8000 0x1f [(1, 0x1000)]) 0x1000 .word 0x77)) 32 0xE4911004 (fun t =>
    holds t [(1, 0x77)] && t.cpsr.toWord == 0x1f && ended t 0x8004 3) = true := by decide

theorem test_ldrh_ls9 : runs (lenient (put (start 0x8000 0x1f [(1, 0x1000)]) 0x1000 .word 0x11223344)) 32 0xE1D100B1 (fun t =>
    holds t [(0, 0x44000033)] && t.cpsr.toWord == 0x1f && ended t 0x8004 3) = true := by decide

theorem test_ldrsh_ls10 : runs (put (start 0x8000 0x1f [(1, 0x1000), (2, 2)]) 0x1000 .word 0x7fff0000) 32 0xE19100F2 (fun t =>
    holds t [(0, 0x7fff)] && t.cpsr.toWord == 0x1f && ended t 0x8004 3) = true := by decide

theorem test_ldrsb_ls11 : runs (put (start 0x8000 0x1f [(1, 0x1001)]) 0x1000 .byte 0x7f) 32 0xE15100D1 (fun t =>
    holds t [(0, 0x7f)] && t.cpsr.toWord == 0x1f && ended t 0x8004 3) = true := by decide

theorem test_strh_ls12 : runs (start 0x8000 0x1f [(0, 0xffff8001), (1, 0x1000)]) 32 0xE0C100B2 (fun t =>
    holds t [(1, 0x1002)] && t.mem.load 0x1000 .half == 0x8001 && t.cpsr.toWord == 0x1f && ended t 0x8004 2) = true := by decide

theorem test_swp_ls13 : runs (put (start 0x8000 0x1f [(0, 0x11), (1, 0x1000)]) 0x1000 .word 0x22) 32 0xE1010090 (fun t =>
    holds t [(0, 0x22)] && t.mem.load 0x1000 .word == 0x11 && t.cpsr.toWord == 0x1f && ended t 0x8004 4) = true := by decide

theorem test_swpb_ls14 : runs (put (start 0x8000 0x1f [(1, 0x1001), (2, 0x1ff)]) 0x1000 .word 0x11223344) 32 0xE1410092 (fun t =>
    holds t [(0, 0x33)] && t.mem.load 0x1001 .byte == 0xff && t.cpsr.toWord == 0x1f && ended t 0x8004 4) = true := by decide

theorem test_strh_ls16 : stopsAt (start 0x8000 0x1f [(1, 0x1000)]) 32 0xE1C100D0 .u22 = true := by decide

theorem test_ldrh_ls17 : stopsAt (start 0x8000 0x1f [(1, 0x1000)]) 32 0xE0F100B2 .u10 = true := by decide

/-! Vectors BT of spec/95_test_vectors.md: block transfers. -/

theorem test_stmia_bt1 : runs (start 0x8000 0x1f [(0, 0x1000), (1, 7)]) 32 0xE8A00003 (fun t =>
    holds t [(0, 0x1008)] && t.mem.load 0x1000 .word == 0x1000 && t.mem.load 0x1004 .word == 7 && t.cpsr.toWord == 0x1f && ended t 0x8004 3) = true := by decide

theorem test_stmia_bt2 : runs (start 0x8000 0x1f [(0, 7), (1, 0x1000)]) 32 0xE8A10003 (fun t =>
    holds t [(1, 0x1008)] && t.mem.load 0x1000 .word == 7 && t.mem.load 0x1004 .word == 0x1008 && t.cpsr.toWord == 0x1f && ended t 0x8004 3) = true := by decide

theorem test_ldmia_bt3 : runs (lenient (put (put (start 0x8000 0x1f [(0, 0x1000)]) 0x1000 .word 0xaa) 0x1004 .word 0xbb)) 32 0xE8B00003 (fun t =>
    holds t [(0, 0xaa), (1, 0xbb)] && t.cpsr.toWord == 0x1f && ended t 0x8004 4) = true := by decide

theorem test_stmib_bt4 : runs (start 0x8000 0x1f [(0, 0x1000), (1, 1), (2, 2), (3, 3)]) 32 0xE980000E (fun t =>
    t.mem.load 0x1004 .word == 1 && t.mem.load 0x1008 .word == 2 && t.mem.load 0x100c .word == 3 && t.cpsr.toWord == 0x1f && ended t 0x8004 4) = true := by decide

theorem test_ldmda_bt5 : runs (put (put (start 0x8000 0x1f [(0, 0x1008)]) 0x1004 .word 1) 0x1008 .word 2) 32 0xE8300006 (fun t =>
    holds t [(0, 0x1000), (1, 1), (2, 2)] && t.cpsr.toWord == 0x1f && ended t 0x8004 4) = true := by decide

theorem test_ldmia_bt7 : runs (put (put (start 0x8000 0x12 [(0, 0x1000)]) 0x1000 .word 0x111) 0x1004 .word 0x222) 32 0xE8D06000 (fun t =>
    t.readUser 13 == 0x111 && t.readUser 14 == 0x222 && t.cpsr.toWord == 0x12 && ended t 0x8004 4) = true := by decide

theorem test_ldmia_bt8 : runs ((put (put (start 0x8000 0x12 [(0, 0x1000)]) 0x1000 .word 1) 0x1004 .word 0x8101).hostWriteSpsr .irq 0x3f) 32 0xE8F08002 (fun t =>
    holds t [(0, 0x1008), (1, 1)] && t.cpsr.toWord == 0x3f && ended t 0x8100 6) = true := by decide

theorem test_stmia_bt10 : stopsAt (start 0x8000 0x12 [(0, 0x1000)]) 32 0xE8E00002 .u16 = true := by decide

/-! Vectors MU of spec/95_test_vectors.md: multiply. -/

theorem test_mul_mu8 : runs (start 0x8000 0x1f [(1, 3), (2, 0x80000000)]) 32 0xE0000291 (fun t =>
    holds t [(0, 0x80000000)] && t.cpsr.toWord == 0x1f && ended t 0x8004 5) = true := by decide

theorem test_mlas_mu9 : runs (start 0x8000 0x1f [(1, 0xffffffff), (2, 1), (3, 1)]) 32 0xE0303291 (fun t =>
    t.cpsr.n == false && t.cpsr.z == true && t.cpsr.m == 0x1F && ended t 0x8004 3) = true := by decide

theorem test_umulls_mu10 : runs (start 0x8000 0x1f [(2, 0x80000000), (3, 2)]) 32 0xE0910392 (fun t =>
    holds t [(0, 0), (1, 1)] && t.cpsr.n == false && t.cpsr.z == false && t.cpsr.m == 0x1F && ended t 0x8004 3) = true := by decide

theorem test_umlal_mu11 : runs (start 0x8000 0x1f [(0, 0xffffffff), (1, 0xffffffff), (2, 1), (3, 1)]) 32 0xE0A10392 (fun t =>
    holds t [(0, 0), (1, 0)] && t.cpsr.toWord == 0x1f && ended t 0x8004 4) = true := by decide

theorem test_smulls_mu12 : runs (start 0x8000 0x1f [(2, 0xffffffff), (3, 0x80000000)]) 32 0xE0D10392 (fun t =>
    holds t [(0, 0x80000000), (1, 0)] && t.cpsr.n == false && t.cpsr.z == false && t.cpsr.m == 0x1F && ended t 0x8004 6) = true := by decide

theorem test_smlal_mu13 : runs (start 0x8000 0x1f [(0, 0), (1, 0x80000000), (2, 0xffffffff), (3, 1)]) 32 0xE0E10392 (fun t =>
    holds t [(0, 0xffffffff), (1, 0x7fffffff)] && t.cpsr.toWord == 0x1f && ended t 0x8004 4) = true := by decide

theorem test_mul_mu14 : runs (lenient (start 0x8000 0x1f [(0, 3), (1, 5)])) 32 0xE0000190 (fun t =>
    holds t [(0, 0xf)] && t.cpsr.toWord == 0x1f && ended t 0x8004 2) = true := by decide

theorem test_umull_mu16 : stopsAt (start 0x8000 0x1f [(2, 1), (3, 1)]) 32 0xE0800392 .u6 = true := by decide

/-! Vectors BR of spec/95_test_vectors.md: branches and exceptions. -/

theorem test_b_br2 : runs (start 0xfffffffc 0x1f []) 32 0xEA000000 (fun t =>
    t.cpsr.toWord == 0x1f && ended t 4 3) = true := by decide

theorem test_bne_br3 : runs (start 0x8000 0x4000001f []) 32 0x1AFFFFFE (fun t =>
    t.cpsr.toWord == 0x4000001f && ended t 0x8004 1) = true := by decide

theorem test_bl_br4 : runs (start 0x8000 0x1f []) 32 0xEBFFFFFA (fun t =>
    holds t [(14, 0x8004)] && t.cpsr.toWord == 0x1f && ended t 0x7ff0 3) = true := by decide

theorem test_bx_br5 : runs (lenient (start 0x8000 0x1f [(0, 0x9002)])) 32 0xE12FFF10 (fun t =>
    t.cpsr.toWord == 0x1f && ended t 0x9000 3) = true := by decide

theorem test_bx_br6 : runs (start 0x8000 0x1f [(0, 0x9003)]) 32 0xE12FFF10 (fun t =>
    t.cpsr.toWord == 0x3f && ended t 0x9002 3) = true := by decide

theorem test_swi_br7 : runs (start 0x8000 0x8000005f []) 32 0xEFABCDEF (fun t =>
    holds t [(14, 0x8004)] && t.spsrs.svc.toWord == 0x8000005f && t.cpsr.toWord == 0x800000d3 && ended t 8 3) = true := by decide

theorem test_und_br9 : runs (start 0x8000 0x11 []) 32 0xE7F000F0 (fun t =>
    holds t [(14, 0x8004)] && t.cpsr.toWord == 0x9b && ended t 4 4) = true := by decide

theorem test_mrc_br10 : runs (start 0x8000 0x13 []) 32 0xEE100F10 (fun t =>
    holds t [(14, 0x8004)] && t.cpsr.toWord == 0x9b && ended t 4 4) = true := by decide

theorem test_ldc_br11 : runs (start 0x8000 0x13 []) 32 0xED900100 (fun t =>
    holds t [(14, 0x8004)] && t.cpsr.toWord == 0x9b && ended t 4 4) = true := by decide

theorem test_swieq_br12 : runs (start 0x8000 0x10 []) 32 0x0F000000 (fun t =>
    t.cpsr.toWord == 0x10 && ended t 0x8004 1) = true := by decide

/-! Vectors TA of spec/95_test_vectors.md: THUMB data processing. -/

theorem test_lsl_ta1 : runs (start 0x8000 0x2000003f [(1, 0x80000000)]) 16 0x0008 (fun t =>
    holds t [(0, 0x80000000)] && t.cpsr.toWord == 0xa000003f && ended t 0x8002 1) = true := by decide

theorem test_asr_ta2 : runs (start 0x8000 0x3f [(1, 0x80000000)]) 16 0x1008 (fun t =>
    holds t [(0, 0xffffffff)] && t.cpsr.toWord == 0xa000003f && ended t 0x8002 1) = true := by decide

theorem test_add_ta3 : runs (start 0x8000 0x3f [(1, 0xfffffff9)]) 16 0x1DC8 (fun t =>
    t.cpsr.toWord == 0x6000003f && ended t 0x8002 1) = true := by decide

theorem test_sub_ta4 : runs (start 0x8000 0x3f [(0, 9)]) 16 0x1A00 (fun t =>
    holds t [(0, 0)] && t.cpsr.toWord == 0x6000003f && ended t 0x8002 1) = true := by decide

theorem test_mov_ta5 : runs (start 0x8000 0xb000003f []) 16 0x2000 (fun t =>
    t.cpsr.toWord == 0x7000003f && ended t 0x8002 1) = true := by decide

theorem test_cmp_ta6 : runs (start 0x8000 0x3f [(7, 0x100)]) 16 0x2FFF (fun t =>
    t.cpsr.toWord == 0x2000003f && ended t 0x8002 1) = true := by decide

theorem test_lsl_ta7 : runs (start 0x8000 0x2000003f [(0, 5), (1, 0x100)]) 16 0x4088 (fun t =>
    t.cpsr.toWord == 0x2000003f && ended t 0x8002 2) = true := by decide

theorem test_ror_ta8 : runs (start 0x8000 0x3f [(0, 0x80000001), (1, 0x20)]) 16 0x41C8 (fun t =>
    t.cpsr.toWord == 0xa000003f && ended t 0x8002 2) = true := by decide

theorem test_adc_ta9 : runs (start 0x8000 0x2000003f [(0, 0x7fffffff), (1, 0)]) 16 0x4148 (fun t =>
    holds t [(0, 0x80000000)] && t.cpsr.toWord == 0x9000003f && ended t 0x8002 1) = true := by decide

theorem test_sbc_ta10 : runs (start 0x8000 0x3f [(0, 0), (1, 0)]) 16 0x4188 (fun t =>
    holds t [(0, 0xffffffff)] && t.cpsr.toWord == 0x8000003f && ended t 0x8002 1) = true := by decide

theorem test_mul_ta11 : runs (start 0x8000 0x3f [(0, 0x10000), (1, 0x10000)]) 16 0x4348 (fun t =>
    holds t [(0, 0)] && t.cpsr.n == false && t.cpsr.z == true && t.cpsr.m == 0x1F && ended t 0x8002 4) = true := by decide

theorem test_cmn_ta12 : runs (start 0x8000 0x3f [(0, 0x7fffffff), (1, 1)]) 16 0x42C8 (fun t =>
    t.cpsr.toWord == 0x9000003f && ended t 0x8002 1) = true := by decide

theorem test_add_ta13 : runs (start 0x8000 0x3f [(0, 0x10)]) 16 0x4487 (fun t =>
    t.cpsr.toWord == 0x3f && ended t 0x8014 3) = true := by decide

theorem test_mov_ta14 : runs (start 0x8000 0x3f [(14, 0x9001)]) 16 0x46F7 (fun t =>
    t.cpsr.toWord == 0x3f && ended t 0x9000 3) = true := by decide

theorem test_cmp_ta15 : runs (start 0x8000 0x3f [(8, 0x80000000), (9, 1)]) 16 0x45C8 (fun t =>
    t.cpsr.toWord == 0x3000003f && ended t 0x8002 1) = true := by decide

theorem test_mov_ta16 : runs (start 0x8000 0x4000003f [(0, 0)]) 16 0x4680 (fun t =>
    t.cpsr.toWord == 0x4000003f && ended t 0x8002 1) = true := by decide

theorem test_add_ta17 : runs (start 0x8000 0x3f []) 16 0xA001 (fun t =>
    holds t [(0, 0x8008)] && t.cpsr.toWord == 0x3f && ended t 0x8002 1) = true := by decide

theorem test_sub_ta18 : runs (start 0x8000 0x3f [(13, 0x1000)]) 16 0xB0FF (fun t =>
    holds t [(13, 0xe04)] && t.cpsr.toWord == 0x3f && ended t 0x8002 1) = true := by decide

theorem test_bx_ta19 : stopsAt (start 0x8000 0x3f [(8, 0x9000)]) 16 0x47C0 .u21 = true := by decide

/-! Vectors TL of spec/95_test_vectors.md: THUMB loads and stores. -/

theorem test_ldr_tl1 : runs (put (start 0x8000 0x3f []) 0x8004 .word 0x12345678) 16 0x4800 (fun t =>
    holds t [(0, 0x12345678)] && t.cpsr.toWord == 0x3f && ended t 0x8002 3) = true := by decide

theorem test_ldr_tl2 : runs (put (start 0x8002 0x3f []) 0x8004 .word 0x12345678) 16 0x4800 (fun t =>
    holds t [(0, 0x12345678)] && t.cpsr.toWord == 0x3f && ended t 0x8004 3) = true := by decide

theorem test_ldrh_tl3 : runs (put (start 0x8000 0x3f [(1, 0x1000)]) 0x103e .half 0xbeef) 16 0x8FC8 (fun t =>
    holds t [(0, 0xbeef)] && t.cpsr.toWord == 0x3f && ended t 0x8002 3) = true := by decide

theorem test_strb_tl4 : runs (start 0x8000 0x3f [(0, 0x12345678), (1, 0x1000)]) 16 0x77C8 (fun t =>
    t.mem.load 0x101f .byte == 0x78 && t.cpsr.toWord == 0x3f && ended t 0x8002 2) = true := by decide

theorem test_ldr_tl5 : runs (put (start 0x8000 0x3f [(13, 0x1000)]) 0x13fc .word 0xcafe) 16 0x98FF (fun t =>
    holds t [(0, 0xcafe)] && t.cpsr.toWord == 0x3f && ended t 0x8002 3) = true := by decide

theorem test_pop_tl7 : runs (put (start 0x8000 0x3f [(13, 0xffc)]) 0xffc .word 0x55) 16 0xBC01 (fun t =>
    holds t [(0, 0x55), (13, 0x1000)] && t.cpsr.toWord == 0x3f && ended t 0x8002 3) = true := by decide

theorem test_pop_tl8 : runs (put (start 0x8000 0x3f [(13, 0xffc)]) 0xffc .word 0x9000) 16 0xBD00 (fun t =>
    holds t [(13, 0x1000)] && t.cpsr.toWord == 0x3f && ended t 0x9000 5) = true := by decide

theorem test_stmia_tl9 : runs (start 0x8000 0x3f [(0, 0x1000), (1, 1)]) 16 0xC003 (fun t =>
    holds t [(0, 0x1008)] && t.mem.load 0x1000 .word == 0x1000 && t.mem.load 0x1004 .word == 1 && t.cpsr.toWord == 0x3f && ended t 0x8002 3) = true := by decide

theorem test_ldmia_tl10 : runs (put (start 0x8000 0x3f [(0, 0x1000)]) 0x1000 .word 9) 16 0xC802 (fun t =>
    holds t [(0, 0x1004), (1, 9)] && t.cpsr.toWord == 0x3f && ended t 0x8002 3) = true := by decide

theorem test_push_tl11 : stopsAt (start 0x8000 0x3f [(13, 0x1000)]) 16 0xB400 .u28 = true := by decide

/-! Vectors TB of spec/95_test_vectors.md: THUMB branches. -/

theorem test_beq_tb1 : runs (start 0x8000 0x3f []) 16 0xD000 (fun t =>
    t.cpsr.toWord == 0x3f && ended t 0x8002 1) = true := by decide

theorem test_blt_tb2 : runs (start 0x8000 0x8000003f []) 16 0xDB7E (fun t =>
    t.cpsr.toWord == 0x8000003f && ended t 0x8100 3) = true := by decide

theorem test_b_tb3 : runs (start 0x8000 0x3f []) 16 0xE3FF (fun t =>
    t.cpsr.toWord == 0x3f && ended t 0x8802 3) = true := by decide

theorem test_b_tb4 : runs (start 0x8000 0x3f []) 16 0xE400 (fun t =>
    t.cpsr.toWord == 0x3f && ended t 0x7804 3) = true := by decide

theorem test_swi_tb5 : runs (start 0x8000 0x3f []) 16 0xDFFF (fun t =>
    holds t [(14, 0x8002)] && t.cpsr.toWord == 0x93 && ended t 8 3) = true := by decide

theorem test_bl_tb6 : runs (start 0x8000 0x3f []) 16 0xF7FF (fun t =>
    holds t [(14, 0x7004)] && t.cpsr.toWord == 0x3f && ended t 0x8002 1) = true := by decide

theorem test_bl_tb7 : runs (start 0x8000 0x3f [(14, 0x9000)]) 16 0xF800 (fun t =>
    holds t [(14, 0x8003)] && t.cpsr.toWord == 0x3f && ended t 0x9000 3) = true := by decide

theorem test_undefined_tb8 : runs (start 0x8000 0x33 []) 16 0xB100 (fun t =>
    holds t [(14, 0x8002)] && t.cpsr.toWord == 0x9b && ended t 4 4) = true := by decide

theorem test_undefined_tb9 : runs (start 0x8000 0x33 []) 16 0xE800 (fun t =>
    holds t [(14, 0x8002)] && t.cpsr.toWord == 0x9b && ended t 4 4) = true := by decide

theorem test_bge_tb10 : runs (start 0x8000 0x9000003f []) 16 0xDA80 (fun t =>
    t.cpsr.toWord == 0x9000003f && ended t 0x7f04 3) = true := by decide

theorem test_bhi_tb11 : runs (start 0x8000 0x6000003f []) 16 0xD87E (fun t =>
    t.cpsr.toWord == 0x6000003f && ended t 0x8002 1) = true := by decide

/-! Vectors EX of spec/95_test_vectors.md: exceptions raised by the host between steps. -/

/-- A host-raised exception fires, and the state after it passes a check. -/
def fires (s : State) (k : ExceptionKind) (ok : State → Bool) : Bool :=
  (s.handleException k).1 && ok (s.handleException k).2

theorem test_handleException_ex1 : (start 0x8004 0x9F []).handleException .irq = (false, start 0x8004 0x9F []) := by
  decide

theorem test_handleException_ex2 : fires (start 0x8004 0x1F []) .irq (fun t =>
    t.cpsr.toWord == 0x92 && t.readReg 14 == 0x8008 && t.spsrs.irq.toWord == 0x1F && t.instrAddr == 0x18 &&
    t.totalCycles == 4) = true := by decide

theorem test_handleException_ex4 : fires (start 0x8004 0x13 []) .fiq (fun t =>
    t.cpsr.toWord == 0xD1 && t.readReg 14 == 0x8008 && t.spsrs.fiq.toWord == 0x13 && t.instrAddr == 0x1C) = true := by
  decide

theorem test_handleException_ex8 : fires (start 0x8004 0x3F []) .dataAbort (fun t =>
    t.cpsr.toWord == 0x97 && t.readReg 14 == 0x800A && t.spsrs.abt.toWord == 0x3F && t.instrAddr == 0x10) = true := by
  decide

theorem test_handleException_ex13 : fires (start 0x8004 0x1F []) .addressExceeds26Bit (fun t =>
    t.cpsr.toWord == 0x93 && t.readReg 14 == 0x8008 && t.spsrs.svc.toWord == 0x1F && t.instrAddr == 0x14) = true := by
  decide

/-- After hardware reset with MOV r0, #1 at the vector (R570, R574): the first step runs it. -/
theorem test_reset_first_step :
    hardwareReset (Mem.store [] 0 0xE3A00001 .word) State.reset.params = State.reset.withFetchWord 32 0xE3A00001 ∧
    runs State.reset 32 0xE3A00001 (fun t => holds t [(0, 1)] && ended t 4 1) = true := by decide

/-- A write the host ignores leaves memory (R85); outside the window it is stored. -/
theorem test_port_drops :
    let s := start 0x8000 0x1F [(0, 7), (1, 0x1000)]
    let d := { s with params := { s.params with windows := [⟨0x1000, 0x1FFF, false, true⟩] } }
    (match exec (.strImmPre .al true false 1 0 0) d with
      | .next t => t.mem == d.mem
      | _ => false) = true ∧
    (match exec (.strImmPre .al true false 1 0 0x100) d with
      | .next t => t.mem == d.mem
      | _ => false) = true ∧
    (match exec (.strImmPre .al false false 1 0 4) d with
      | .next t => t.mem.load 0x0FFC .word == 7
      | _ => false) = true := by decide

/-- The PC-relative THUMB load at an odd address aligns and rotates as every word load (R87, R88, log 26). -/
theorem test_ldrPc_odd :
    let s := put (start 0x8000 0x3F []) 0x8008 .word 0x11223344
    (match exec (.tLdrPc 0 1) (s.hostWritePc 0x8005) with
      | .next t => t.readReg 0 == 0x44112233
      | _ => false) = true := by decide

/-- U27 is a case of the entry: a SWI right after LDM(2) without a hook (R354, log 12). -/
theorem test_swi_after_ldmUser :
    exec (.swi .al 0) { start 0x8000 0x1F [] with userBankHazard := true } = .fault (.unpredictable .u27 0x8000) :=
  rfl

/-! ## Witnesses

For each statement of Certificates/Slice0/Obligations.lean with hypotheses: a concrete state and operands that meet
them, each clause at a boundary of its range. -/

/-- An outcome is a next state. -/
def nexts (r : Result State) : Bool :=
  match r with
  | .next _ => true
  | .fault _ => false
  | .refused _ => false

theorem next_of_nexts {r : Result State} (h : nexts r = true) : ∃ t, r = .next t := by
  cases r with
  | next t => exact ⟨t, rfl⟩
  | fault _ => exact Bool.noConfusion h
  | refused _ => exact Bool.noConfusion h

/-- ARM state in System mode, in User mode, in IRQ mode with a THUMB state saved, and THUMB state. -/
def sys : State := start 0x8000 0x1F [(0, 7), (1, 0x1000), (2, 4), (13, 0x2000), (14, 0x9000)]

def usr : State := start 0x8000 0x10 [(0, 7), (1, 0x1000)]

def irq : State := (start 0x8000 0x92 [(0, 7), (1, 0x1000), (14, 0x9000)]).hostWriteSpsr .irq 0x3F

def thumb : State := start 0x8000 0x3F [(0, 7), (1, 0x1000), (2, 4), (13, 0x2000), (14, 0x9000)]

theorem witness_decodeEncode :
    (Instr.movImm .nv true 15 15 15 255).encodable = true ∧ (Instr.undMul .al 0x0400090).encodable = true ∧
    (Instr.tUndB8 0x3FF).encodable = true := by decide

theorem witness_stepRunsDecoded :
    let s := sys.withFetchWord 32 0xE3A00001
    s.faultRecord = none ∧ s.cpsr.mode = some .system ∧ s.decoded = s.mem.load s.instrAddr s.opWidth ∧
    decodeBytes s.cpsr.t
      [s.mem.byteAt s.instrAddr, s.mem.byteAt (s.instrAddr + 1), s.mem.byteAt (s.instrAddr + 2),
        s.mem.byteAt (s.instrAddr + 3)] = .ok (.movImm .al false 0 0 0 1, []) := by decide

theorem witness_stepRunsDecoded_thumb :
    let s := thumb.withFetchWord 16 0x1C48
    s.faultRecord = none ∧ s.cpsr.mode = some .system ∧ s.decoded = s.mem.load s.instrAddr s.opWidth ∧
    decodeBytes s.cpsr.t
      [s.mem.byteAt s.instrAddr, s.mem.byteAt (s.instrAddr + 1), s.mem.byteAt (s.instrAddr + 2),
        s.mem.byteAt (s.instrAddr + 3)] = .ok (.tAddImm3 1 1 0, [0, 0]) := by decide

theorem witness_stepStops :
    ({ sys with faultRecord := some (.invalidMode 0) } : State).faultRecord = some (.invalidMode 0) ∧
    (sys.hostWriteCpsr 0).faultRecord = none ∧ (sys.hostWriteCpsr 0).cpsr.mode = none ∧
    step (sys.hostWriteCpsr 0) = .fault (.invalidMode 0x8000) := ⟨rfl, rfl, by decide, rfl⟩

theorem witness_conditionFailed :
    (Instr.swi .eq 0).cond? = some .eq ∧ Cond.eq.passes sys.cpsr = false ∧
    (Instr.swi .nv 0).cond? = some .nv ∧ Cond.nv.passes sys.cpsr = false ∧ sys.params.unpred = .fault ∧
    (lenient sys).params.unpred = .implement := by decide

theorem witness_resetState : Params.default.exceptionBase = 0 ∧ Mem.wf [] = true := by decide

theorem witness_resetInv : Mem.wf [] = true ∧ Mem.wf (put sys 0xFFFFFFFF .byte 1).mem = true := by decide

theorem inv_of {s : State} (h : s.mem.wf = true ∧ s.cpsr.mode.isSome = true ∧ alignTo s.opWidth s.pc = s.pc ∧
    (s.cpsr.t = true → s.decoded.toNat < 2 ^ 16) ∧ (s.cpsr.t = true → s.fetched.toNat < 2 ^ 16) ∧ s.hook = none) :
    s.Inv :=
  ⟨h.1, h.2.1, h.2.2.1, h.2.2.2.1, h.2.2.2.2.1, h.2.2.2.2.2⟩

theorem witness_invKept :
    (thumb.withFetchWord 16 0xB501).Inv ∧ (∃ t, step (thumb.withFetchWord 16 0xB501) = .next t) ∧
    (irq.withFetchWord 32 0xE1B0F00E).Inv ∧ ∃ t, step (irq.withFetchWord 32 0xE1B0F00E) = .next t :=
  ⟨inv_of (by decide), next_of_nexts (by decide), inv_of (by decide), next_of_nexts (by decide)⟩

theorem witness_memWfKept :
    (sys.withFetchWord 32 0xE5810000).mem.wf = true ∧ ∃ t, step (sys.withFetchWord 32 0xE5810000) = .next t :=
  ⟨by decide, next_of_nexts (by decide)⟩

theorem witness_stepKeeps : ∃ t, step (sys.withFetchWord 32 0xE3A00001) = .next t := next_of_nexts (by decide)

theorem witness_userModeLeaves :
    usr.params.unpred = .fault ∧ usr.hook = none ∧ usr.cpsr.m = 0x10 ∧
    (∃ t, step (usr.withFetchWord 32 0xE3A00001) = .next t) ∧ ∃ t, step (usr.withFetchWord 32 0xEF000000) = .next t :=
  ⟨by decide, by decide, by decide, next_of_nexts (by decide), next_of_nexts (by decide)⟩

theorem witness_policyAgrees :
    sys.hook = none ∧ sys.params.unpred = .fault ∧ ∃ t, exec (.ldmia .al true 1 0x8001) sys = .next t :=
  ⟨by decide, by decide, next_of_nexts (by decide)⟩

theorem witness_bankIsolation :
    ((14 : RegNum) ≠ 15 ∧ (0 : RegNum) ≠ 15) ∧ (Bank.usr ≠ .svc ∧ Bank.fiq ≠ .und) ∧ ((7 : RegNum).toNat < 8) ∧
    ((12 : RegNum).toNat < 13 ∧ Bank.usr ≠ .fiq ∧ Bank.und ≠ .fiq) ∧
    8 ≤ (8 : RegNum).toNat ∧ 8 ≤ (14 : RegNum).toNat := by decide

theorem witness_bankIsolation_fiq :
    (8 ≤ (8 : RegNum).toNat ∧ (8 : RegNum).toNat < 13) ∧ (8 ≤ (12 : RegNum).toNat ∧ (12 : RegNum).toNat < 13) ∧
    Bank.usr ≠ .fiq ∧ Bank.und ≠ .fiq := by decide

theorem witness_byteOrder :
    3 < 4 ∧ 1 < 2 ∧ Width.word.bytes ≤ ((4 : Word) - 0).toNat ∧ Width.half.bytes ≤ ((0xFFFFFFFF : Word) - 0).toNat ∧
    Width.byte.bytes ≤ ((1 : Word) - 0).toNat := by decide

/-- A window that answers and one that drops, at their edges. -/
theorem witness_byteOrder_windows :
    let p := { sys.params with windows := [⟨0x1000, 0x1FFF, true, false⟩, ⟨0x2000, 0x2000, false, true⟩] }
    p.answers 0x1000 = true ∧ p.answers 0x1FFF = true ∧ p.answers 0x2000 = false ∧ p.answers 0xFFF = false ∧
    p.drops 0x1FFF = false ∧ p.drops 0x2000 = true ∧ p.drops 0x2001 = false := by decide

theorem witness_shiftImmediate :
    (31 : BitVec 5).toNat ≠ 0 ∧ (1 : BitVec 5).toNat ≠ 0 ∧ (0 : BitVec 5).toNat = 0 ∧ sys.cpsr.t = false ∧
    (Operand2.regShift 0 .lsl 15).isRegShift = true ∧ (Operand2.shift 0 .lsl 15).isRegShift = false := by decide

theorem witness_dpWriteRegister :
    Cond.al.passes sys.cpsr = true ∧ DpOp.add.isTest = false ∧ (14 : RegNum) ≠ 15 ∧
    (Operand2.regShift 14 .ror 0).amountReg ≠ some 15 ∧
    sys.Lenient ((DpOp.add.ignoresRn = true → (1 : RegNum) = 0) ∧
      ((Operand2.regShift 14 .ror 0).isRegShift = true →
        15 ∉ DpOp.add.named 1 14 ++ (Operand2.regShift 14 .ror 0).regs)) := by
  unfold State.Lenient; decide

theorem witness_dpWriteRegister_pc :
    Cond.al.passes sys.cpsr = true ∧ DpOp.mov.isTest = false ∧ (0 : RegNum) ≠ 15 ∧
    (Operand2.shift 0 .lsl 15).amountReg ≠ some 15 ∧
    sys.Lenient ((DpOp.mov.ignoresRn = true → (0 : RegNum) = 0) ∧
      ((Operand2.shift 0 .lsl 15).isRegShift = true → 15 ∉ DpOp.mov.named 0 0 ++ (Operand2.shift 0 .lsl 15).regs)) := by
  unfold State.Lenient; decide

theorem witness_dpWritePc :
    let o := Operand2.shift 0 .lsl 14
    let res := dpResult .mov (o.readReg sys 0) (o.value sys).res sys.cpsr.c
    Cond.al.passes sys.cpsr = true ∧ DpOp.mov.isTest = false ∧ o.amountReg ≠ some 15 ∧
    sys.Lenient ((DpOp.mov.ignoresRn = true → (0 : RegNum) = 0) ∧ o.isRegShift = false ∧
      (sys.cpsr.t = false → misaligned4 res = false)) := by
  unfold State.Lenient; decide

theorem witness_dpReturn :
    let o := Operand2.imm 0 4
    let res := dpResult .sub (o.readReg irq 14) (o.value irq).res irq.cpsr.c
    Cond.al.passes irq.cpsr = true ∧ DpOp.sub.isTest = false ∧ o.amountReg ≠ some 15 ∧ irq.hasSpsr = true ∧
    (irq.spsrs.get irq.bank).mode ≠ none ∧
    irq.Lenient ((DpOp.sub.ignoresRn = true → (14 : RegNum) = 0) ∧ o.isRegShift = false ∧
      ((irq.spsrs.get irq.bank).t = false → misaligned4 res = false)) := by
  unfold State.Lenient; decide

theorem witness_dpTest :
    let o := Operand2.regShift 0 .lsl 14
    Cond.al.passes sys.cpsr = true ∧ DpOp.teq.isTest = true ∧ o.amountReg ≠ some 15 ∧
    sys.Lenient ((0 : RegNum) = 0 ∧ (o.isRegShift = true → 15 ∉ 14 :: o.regs)) := by
  unfold State.Lenient; decide

theorem witness_mrsReads :
    Cond.al.passes sys.cpsr = true ∧ (14 : RegNum) ≠ 15 ∧
    sys.Lenient ((15 : BitVec 4) = 15 ∧ (0 : BitVec 4) = 0 ∧ (0 : BitVec 4) = 0) ∧
    sys.hasSpsr = false ∧ irq.hasSpsr = true := by
  unfold State.Lenient; decide

theorem witness_msrCpsr :
    let p := Psr.ofWord 0xF00000D2
    let v : Word := 0xF00000D2
    Cond.al.passes irq.cpsr = true ∧
    (∀ k, k < 32 → p.toWord.getLsbD k =
      if (9 : BitVec 4).getLsbD (k / 8) = true ∧ (irq.cpsr.m = 0x10 → 24 ≤ k) then v.getLsbD k
      else irq.cpsr.toWord.getLsbD k) ∧
    p.t = irq.cpsr.t ∧ p.mode ≠ none ∧ (14 : RegNum) ≠ 15 ∧ v = (irq.writeReg 14 v).readReg 14 ∧
    irq.Lenient ((15 : BitVec 4) = 15 ∧ (0 : BitVec 4) = 0) := by
  unfold State.Lenient; decide

theorem witness_msrCpsr_user :
    let p := Psr.ofWord 0xF0000010
    let v : Word := 0xF0000000
    Cond.al.passes usr.cpsr = true ∧
    (∀ k, k < 32 → p.toWord.getLsbD k =
      if (15 : BitVec 4).getLsbD (k / 8) = true ∧ (usr.cpsr.m = 0x10 → 24 ≤ k) then v.getLsbD k
      else usr.cpsr.toWord.getLsbD k) ∧
    p.t = usr.cpsr.t ∧ p.mode ≠ none ∧ v = ((0x0F : Byte).setWidth 32 : Word).rotateRight (2 * (2 : BitVec 4).toNat) ∧
    usr.Lenient ((15 : BitVec 4) = 15) := by
  unfold State.Lenient; decide

theorem witness_msrSpsr :
    Cond.al.passes irq.cpsr = true ∧ (14 : RegNum) ≠ 15 ∧
    irq.Lenient ((15 : BitVec 4) = 15 ∧ (0 : BitVec 4) = 0 ∧ irq.hasSpsr = true) ∧
    irq.Lenient ((15 : BitVec 4) = 15 ∧ irq.hasSpsr = true) ∧ (lenient sys).hasSpsr = false ∧ (lenient sys).Lenient False := by
  unfold State.Lenient; decide

theorem witness_multiplyShort :
    Cond.al.passes sys.cpsr = true ∧ ((14 : RegNum) ≠ 15 ∧ (0 : RegNum) ≠ 15) ∧
    sys.Lenient ((14 : RegNum) ≠ 0 ∧ (0 : RegNum) = 0) ∧ sys.Lenient ((14 : RegNum) ≠ 0) := by
  unfold State.Lenient; decide

theorem witness_multiplyLong :
    Cond.al.passes sys.cpsr = true ∧ ((14 : RegNum) ≠ 15 ∧ (0 : RegNum) ≠ 15 ∧ (14 : RegNum) ≠ 0) ∧
    sys.Lenient ((14 : RegNum) ≠ 1 ∧ (0 : RegNum) ≠ 1) := by
  unfold State.Lenient; decide

theorem witness_loadSingle :
    let a := sys.sdtAddress .post true 1 (.imm 0xFFF)
    Cond.al.passes sys.cpsr = true ∧ (14 : RegNum) ≠ 15 ∧ (a.wb = true → (1 : RegNum) ≠ 15) ∧
    15 ∉ (Offset.imm 0xFFF).regs ∧ sys.Lenient (a.wb = true → (14 : RegNum) ≠ 1) := by
  unfold State.Lenient; decide

theorem witness_loadSingle_pcBase :
    let a := sys.sdtAddress (.pre false) false 15 (.reg 0 .ror 14)
    Cond.al.passes sys.cpsr = true ∧ (0 : RegNum) ≠ 15 ∧ (a.wb = true → (15 : RegNum) ≠ 15) ∧
    15 ∉ (Offset.reg 0 .ror 14).regs ∧ sys.Lenient (a.wb = true → (0 : RegNum) ≠ 15) := by
  unfold State.Lenient; decide

theorem witness_loadPc :
    let a := sys.sdtAddress .user true 1 (.imm 4)
    let data := (sys.memRead (alignTo .word a.addr) .word).rotateRight (8 * (a.addr.toNat % 4))
    Cond.al.passes sys.cpsr = true ∧ (a.wb = true → (1 : RegNum) ≠ 15) ∧ 15 ∉ (Offset.imm 4).regs ∧
    sys.Lenient (sys.cpsr.t = false → misaligned4 data = false) := by
  unfold State.Lenient; decide

theorem witness_storeSingle :
    let a := sys.sdtAddress (.pre true) true 1 (.imm 4)
    Cond.al.passes sys.cpsr = true ∧ (a.wb = true → (1 : RegNum) ≠ 15) ∧ 15 ∉ (Offset.imm 4).regs ∧
    sys.Lenient ((a.wb = true → (15 : RegNum) ≠ 1) ∧ (false = true → (15 : RegNum) ≠ 15) ∧
      (false = false → misaligned4 a.addr = false) ∧ sys.hitsPrefetch (alignTo .word a.addr) .word = false) := by
  unfold State.Lenient; decide

theorem witness_loadHalfword :
    let o := HwOffset.imm 15 14
    let a := sys.hwAddress false true false 1 o
    Cond.al.passes sys.cpsr = true ∧ (14 : RegNum) ≠ 15 ∧ (false = true ∨ false = false) ∧
    (a.wb = true → (1 : RegNum) ≠ 15) ∧ 15 ∉ o.regs ∧
    sys.Lenient ((a.wb = true → (14 : RegNum) ≠ 1) ∧ (HalfLoad.signedHalf ≠ .signedByte → a.addr.getLsbD 0 = false)) := by
  unfold State.Lenient; decide

theorem witness_storeHalfword :
    let o := HwOffset.reg 2
    let a := sys.hwAddress true false true 1 o
    Cond.al.passes sys.cpsr = true ∧ (true = true ∨ true = false) ∧ (a.wb = true → (1 : RegNum) ≠ 15) ∧
    15 ∉ o.regs ∧
    sys.Lenient ((∀ rm, o = .reg rm → (0 : RegNum) = 0) ∧ (a.wb = true → (14 : RegNum) ≠ 1) ∧ (14 : RegNum) ≠ 15 ∧
      a.addr.getLsbD 0 = false ∧ sys.hitsPrefetch (alignTo .half a.addr) .half = false) :=
  ⟨by decide, by decide, by decide, by decide, Or.inr ⟨by decide, fun _ _ => rfl, by decide⟩⟩

theorem witness_swapExchanges :
    Cond.al.passes sys.cpsr = true ∧ (1 : RegNum) ≠ 15 ∧ (14 : RegNum) ≠ 15 ∧
    sys.Lenient ((0 : RegNum) = 0 ∧ (1 : RegNum) ≠ 14 ∧ (1 : RegNum) ≠ 0 ∧
      (false = false → misaligned4 (sys.readReg 1) = false) ∧
      sys.hitsPrefetch (alignTo .word (sys.readReg 1)) .word = false) := by
  unfold State.Lenient; decide

theorem witness_storeMultiple :
    let start := BlockMode.db.start (irq.readReg 1) (blockSpan 0xFFFF)
    Cond.al.passes irq.cpsr = true ∧ (1 : RegNum) ≠ 15 ∧
    irq.Lenient ((misaligned4 (irq.readReg 1) = false ∧ (0xFFFF : BitVec 16) ≠ 0 ∧
      ∀ k, k < (blockRegs 0xFFFF).length → irq.hitsPrefetch (blockAddr start k) .word = false) ∧
      irq.hasSpsr = true) := by
  unfold State.Lenient; decide

theorem witness_loadMultiple :
    let rs := blockRegs 0x8001
    let start := BlockMode.ib.start (sys.readReg 1) (blockSpan 0x8001)
    let pcWord := sys.memRead (blockAddr start (rs.length - 1)) .word
    Cond.al.passes sys.cpsr = true ∧ (1 : RegNum) ≠ 15 ∧
    sys.Lenient (misaligned4 (sys.readReg 1) = false ∧ (0x8001 : BitVec 16) ≠ 0 ∧ (true = true → 1 ∉ rs) ∧
      (15 ∈ rs → sys.cpsr.t = false → misaligned4 pcWord = false)) ∧ 15 ∈ rs ∧ 15 ∉ blockRegs 1 := by
  unfold State.Lenient; decide

theorem witness_loadMultipleUser :
    Cond.al.passes irq.cpsr = true ∧ (1 : RegNum) ≠ 15 ∧ (0x6000 : BitVec 15) ≠ 0 ∧
    irq.Lenient (misaligned4 (irq.readReg 1) = false ∧ irq.hasSpsr = true) ∧
    Cond.al.passes (lenient irq).cpsr = true ∧ (lenient irq).params.unpred = .implement := by
  unfold State.Lenient; decide

theorem witness_loadMultipleReturn :
    let rs := listRegs (1#1 ++ (0 : BitVec 15))
    let start := BlockMode.ia.start (irq.readReg 1) (blockSpan (1#1 ++ (0 : BitVec 15)))
    let pcWord := irq.memRead (blockAddr start (rs.length - 1)) .word
    Cond.al.passes irq.cpsr = true ∧ (1 : RegNum) ≠ 15 ∧ irq.hasSpsr = true ∧
    (irq.spsrs.get irq.bank).mode ≠ none ∧
    irq.Lenient (misaligned4 (irq.readReg 1) = false ∧ (true = true → 1 ∉ rs) ∧
      ((irq.spsrs.get irq.bank).t = false → misaligned4 pcWord = false)) := by
  unfold State.Lenient; decide

theorem witness_branchAndLink : Cond.al.passes sys.cpsr = true ∧ sys.Lenient True := by
  unfold State.Lenient; decide

theorem witness_branchExchange :
    Cond.al.passes sys.cpsr = true ∧
    sys.Lenient ((0xFFF : BitVec 12) = 0xFFF ∧
      ((sys.readReg 14).getLsbD 0 = true ∨ (sys.readReg 14).getLsbD 1 = false)) ∧
    thumb.Lenient ((0 : BitVec 3) = 0 ∧ ((thumb.readReg (BitVec.ofBool true ++ (6 : LowReg))).getLsbD 0 = true ∨
      (thumb.readReg (BitVec.ofBool true ++ (6 : LowReg))).getLsbD 1 = false)) := by
  unfold State.Lenient; decide

theorem witness_softwareInterrupt :
    (Instr.swi .al 0).isSwi = true ∧ (∀ c, (Instr.swi .al 0).cond? = some c → c.passes sys.cpsr = true) ∧
    (Instr.tSwi 255).isSwi = true ∧ (∀ c, (Instr.tSwi 255).cond? = some c → c.passes thumb.cpsr = true) ∧
    sys.hook = none ∧ thumb.hook = none ∧ sys.Lenient True ∧ thumb.Lenient True :=
  ⟨rfl, fun c h => (by cases h; decide), rfl, fun c h => (by cases h), rfl, rfl, Or.inr ⟨rfl, trivial⟩, Or.inr ⟨rfl, trivial⟩⟩

theorem witness_undefinedTrap :
    (Instr.undMul .al 0x0400090).isUndefined = true ∧ (Instr.tUndE8 0).isUndefined = true ∧
    ((Instr.mrc .al 0 0 0 15 0 0).isCoprocessor = true ∧ sys.params.coproc = .undefined) ∧
    (∀ c, (Instr.mrc .al 0 0 0 15 0 0).cond? = some c → c.passes sys.cpsr = true) ∧
    sys.hook = none ∧ sys.Lenient True :=
  ⟨rfl, rfl, ⟨rfl, rfl⟩, fun c h => (by cases h; decide), rfl, Or.inr ⟨rfl, trivial⟩⟩

theorem witness_hookAnswers :
    let s := sys.setExceptionHandler 0
    (Instr.swi .al 0).isSwi = true ∧ (∀ c, (Instr.swi .al 0).cond? = some c → c.passes s.cpsr = true) ∧
    (Instr.undMul .al 0x0400090).isUndefined = true ∧
    (∀ c, (Instr.undMul .al 0x0400090).cond? = some c → c.passes s.cpsr = true) ∧
    ((Instr.mrc .al 0 0 0 15 0 0).isCoprocessor = true ∧ s.params.coproc = .undefined) ∧
    (∀ c, (Instr.mrc .al 0 0 0 15 0 0).cond? = some c → c.passes s.cpsr = true) ∧
    s.hook = some 0 ∧ s.Lenient True :=
  ⟨rfl, fun c h => (by cases h; decide), rfl, fun c h => (by cases h; decide), ⟨rfl, rfl⟩,
    fun c h => (by cases h; decide), rfl, Or.inr ⟨rfl, trivial⟩⟩

theorem witness_hostException :
    (ExceptionKind.irq = .irq ∧ irq.cpsr.i = true) ∧
    (sys.faultRecord = none ∧ ¬ (ExceptionKind.irq = .irq ∧ sys.cpsr.i = true) ∧
      ¬ (ExceptionKind.irq = .fiq ∧ sys.cpsr.f = true) ∧ sys.hook = none) ∧
    irq.faultRecord = none ∧ ¬ (ExceptionKind.reset = .irq ∧ irq.cpsr.i = true) ∧
      ¬ (ExceptionKind.reset = .fiq ∧ irq.cpsr.f = true) ∧ irq.hook = none := by decide

theorem witness_specStops :
    let s := { sys with params := { sys.params with coproc := .diagnostic } }
    Cond.al.passes s.cpsr = true ∧ (Instr.cdp .al 0 0 0 0 0 0).isCoprocessor = true ∧
    (∀ c, (Instr.cdp .al 0 0 0 0 0 0).cond? = some c → c.passes s.cpsr = true) ∧ s.params.coproc = .diagnostic :=
  ⟨by decide, rfl, fun c h => (by cases h; decide), rfl⟩

theorem witness_registerStops :
    Cond.al.passes sys.cpsr = true ∧ 15 ∈ [(0 : RegNum), 1, 15] ∧
    ((0 : RegNum) = 0 ∨ 15 ∈ [(0 : RegNum), 0, 1, 2]) ∧
    (15 ∈ (Offset.reg 0 .lsl 15).regs ∨ ((0 : RegNum) = 15 ∧ Indexing.post ≠ .pre false)) ∧
    ((15 : RegNum) = 15 ∧ Indexing.pre true ≠ .pre false) ∧
    ((false = false ∧ true = true) ∨ 15 ∈ (HwOffset.imm 0 0).regs) ∧ 15 ∈ [(15 : RegNum), 0, 1] := by decide

/-- System mode with a misaligned base in r1 and r2, an aligned one in r3 and the next opcode's address in r4. -/
def strict : State := start 0x8000 0x1F [(1, 0x1001), (2, 0x1002), (3, 0x1000), (4, 0x8004)]

theorem witness_policyStops :
    strict.params.unpred = .fault ∧ Cond.al.passes strict.cpsr = true ∧ strict.userBankHazard = false ∧
    (strict.hasSpsr = false ∧ (14 : RegNum) ≠ 15) ∧
    ((0 : RegNum) ≠ 15 ∧ (DpOp.mov.ignoresRn = true → (0 : RegNum) = 0) ∧ (DpOp.tst.isTest = true → (0 : RegNum) = 0)) ∧
    (15 : BitVec 4) ≠ 0 ∧ 15 ∉ [(0 : RegNum), 14, 1] := by decide

theorem witness_policyStops_single :
    let a := fun (rn : RegNum) => (strict.sdtAddress (.pre false) true rn (.imm 0)).addr
    strict.hitsPrefetch (a 3) .byte = false ∧ (3 : RegNum) ≠ 15 ∧
    (misaligned4 (strict.sdtAddress (.pre true) true 3 (.imm 0)).addr = false ∧
      strict.hitsPrefetch (strict.sdtAddress (.pre true) true 3 (.imm 0)).addr .word = false) ∧
    ((strict.readReg (1 : LowReg).toReg + strict.readReg (0 : LowReg).toReg).getLsbD 0 = true ∧
      strict.hitsPrefetch (alignTo .half (strict.readReg (1 : LowReg).toReg + strict.readReg (0 : LowReg).toReg))
        .half = false) ∧
    (misaligned4 (a 1) = true ∧ strict.hitsPrefetch (alignTo .word (a 1)) .word = false) ∧
    (misaligned4 (a 4) = false ∧ strict.hitsPrefetch (alignTo .word (a 4)) .word = true) := by decide

theorem witness_policyStops_block :
    let quiet := fun (m : BlockMode) (rn : RegNum) (rl : BitVec 16) => ∀ k, k < (blockRegs rl).length →
      strict.hitsPrefetch (blockAddr (m.start (strict.readReg rn) (blockSpan rl)) k) .word = false
    ((1 : RegNum) ≠ 15 ∧ misaligned4 (strict.readReg 1) = true ∧ (0x7FFD : BitVec 16) ≠ 0 ∧ quiet .db 1 0x7FFD ∧
      15 ∉ listRegs 0x7FFD ∧ 1 ∉ listRegs 0x7FFD) ∧
    ((3 : RegNum) ≠ 15 ∧ misaligned4 (strict.readReg 3) = false ∧ quiet .da 3 0 ∧
      misaligned4 (strict.memRead (blockAddr (BlockMode.da.start (strict.readReg 3) 0x40) 0) .word) = false) ∧
    (3 ∈ listRegs 8 ∧ 15 ∉ listRegs 8) ∧
    (strict.hasSpsr = false ∧ (8 : BitVec 16) ≠ 0 ∧ (0x4000 : BitVec 15) ≠ 0 ∧ quiet .ib 3 8) := by decide

theorem witness_policyStops_others :
    (15 ∉ [(1 : RegNum), 0, 14] ∧ 1 ∉ [(0 : RegNum), 14] ∧ misaligned4 (strict.readReg 1) = true ∧
      strict.hitsPrefetch (alignTo .word (strict.readReg 1)) .word = false) ∧
    ((strict.readReg 2).getLsbD 0 = false ∧ (strict.readReg 2).getLsbD 1 = true) ∧
    (15 ∉ [(3 : RegNum), 3, 14] ∧ (3 : RegNum) ∈ [(3 : RegNum), 14] ∧ misaligned4 (strict.readReg 3) = false ∧
      strict.hitsPrefetch (strict.readReg 3) .word = false ∧ strict.hitsPrefetch (strict.readReg 3) .byte = false) ∧
    (DpOp.mov.isTest = false ∧ (DpOp.mov.ignoresRn = true → (0 : RegNum) = 0) ∧ strict.cpsr.t = false ∧
      misaligned4 (dpResult .mov (strict.readReg 0) ((Operand2.imm 0 2).value strict).res strict.cpsr.c) = true) := by
  decide

theorem witness_policyStops_hazard :
    let s := { irq with userBankHazard := true }
    s.params.unpred = .fault ∧ Cond.al.passes s.cpsr = true ∧ s.userBankHazard = true ∧ (14 : RegNum) ≠ 15 ∧
    s.bank.reg 14 ≠ Bank.usr.reg 14 ∧ s.hook = none := by decide

theorem witness_thumbHiRegister :
    thumb.Lenient (true = true ∨ false = true) ∧ BitVec.ofBool true ++ (7 : LowReg) = (15 : RegNum) ∧
    BitVec.ofBool true ++ (6 : LowReg) ≠ (15 : RegNum) ∧ (lenient thumb).Lenient (false = true ∨ false = true) := by
  unfold State.Lenient; decide

theorem witness_thumbAddress : thumb.Lenient True := Or.inr ⟨rfl, trivial⟩

theorem witness_thumbLoad :
    let reg := thumb.readReg (1 : LowReg).toReg + thumb.readReg (2 : LowReg).toReg
    let imm := fun n : Nat => thumb.readReg (1 : LowReg).toReg + BitVec.ofNat 32 (n * (31 : BitVec 5).toNat)
    thumb.instrAddr.getLsbD 0 = false ∧ thumb.Lenient True ∧ thumb.Lenient (reg.getLsbD 0 = false) ∧
    thumb.Lenient ((imm 2).getLsbD 0 = false) := by
  unfold State.Lenient; decide

theorem witness_thumbStore :
    let ea := thumb.readReg (1 : LowReg).toReg + thumb.readReg (2 : LowReg).toReg
    let sp := thumb.readReg 13 + BitVec.ofNat 32 (4 * (255 : Byte).toNat)
    thumb.Lenient (alignTo .word ea = ea ∧ thumb.hitsPrefetch (alignTo .word ea) .word = false) ∧
    thumb.Lenient (alignTo .half ea = ea ∧ thumb.hitsPrefetch (alignTo .half ea) .half = false) ∧
    thumb.Lenient (alignTo .byte ea = ea ∧ thumb.hitsPrefetch (alignTo .byte ea) .byte = false) ∧
    thumb.Lenient (alignTo .word sp = sp ∧ thumb.hitsPrefetch (alignTo .word sp) .word = false) := by
  unfold State.Lenient; decide

theorem witness_thumbBlockStore :
    let rs := listRegs (0#1 ++ BitVec.ofBool true ++ 0#6 ++ (0xFF : Byte))
    let start := BlockMode.db.start (thumb.readReg 13) (BitVec.ofNat 32 (4 * rs.length))
    (0#1 ++ BitVec.ofBool true ++ 0#6 ++ (0xFF : Byte) : BitVec 16) ≠ 0 ∧
    thumb.Lenient (misaligned4 (thumb.readReg 13) = false ∧
      ∀ k, k < rs.length → thumb.hitsPrefetch (blockAddr start k) .word = false) := by
  unfold State.Lenient; decide

theorem witness_thumbBlockLoad :
    let rs := listRegs (BitVec.ofBool true ++ 0#7 ++ (0 : Byte))
    (BitVec.ofBool true ++ 0#7 ++ (0 : Byte) : BitVec 16) ≠ 0 ∧
    thumb.Lenient (misaligned4 (thumb.readReg 13) = false ∧ 13 ∉ rs) ∧
    ((0xFD : Byte).setWidth 16 : BitVec 16) ≠ 0 ∧
    thumb.Lenient (misaligned4 (thumb.readReg (1 : LowReg).toReg) = false ∧
      (1 : LowReg).toReg ∉ listRegs ((0xFD : Byte).setWidth 16)) := by
  unfold State.Lenient; decide

theorem witness_thumbBranches :
    thumbBranchInstr .ne 128 = some (.tBne 128) ∧ Cond.ne.passes thumb.cpsr = true ∧
    thumbBranchInstr .eq 127 = some (.tBeq 127) ∧ Cond.eq.passes thumb.cpsr = false ∧ thumb.Lenient True := by
  unfold State.Lenient; decide

end Sys2Proof.Tests
end

/-! # Scope: steps, reset and the fault record (00_scope.md, 10_state.md, 70_reset_and_hazards.md) -/

namespace Sys2Proof.Machine

/-! ## What a step can answer -/

/-- A machine that has stopped answers its record (R14). -/
theorem step_of_record {s : State} {f : Fault} (h : s.faultRecord = some f) : step s = .fault f := by
  simp [step, h]

/-- A mode field that is no mode faults (R31). -/
theorem step_of_invalidMode {s : State} (h : s.faultRecord = none) (hm : s.cpsr.mode = none) :
    step s = .fault (.invalidMode s.instrAddr) := by
  simp [step, h, hm]

/-- A running machine in a legal mode executes the instruction in `decoded` (R181). -/
theorem step_of_running {s : State} {m : Mode} (h : s.faultRecord = none) (hm : s.cpsr.mode = some m) :
    step s = endResult (exec s.nextInstr s.beginStep) := by
  simp [step, h, hm]

theorem endResult_next {r : Result State} {t : State} :
    endResult r = .next t ↔ ∃ u, r = .next u ∧ u.endStep = t := by
  cases r <;> simp [endResult]

/-- A step reaches a next state only from a running machine, by its instruction and the end of the step (R181). -/
theorem step_next {s t : State} (h : step s = .next t) :
    s.faultRecord = none ∧ ∃ u, exec s.nextInstr s.beginStep = .next u ∧ u.endStep = t := by
  cases hf : s.faultRecord with
  | some f => simp [step_of_record hf] at h
  | none =>
    cases hm : s.cpsr.mode with
    | none => simp [step_of_invalidMode hf hm] at h
    | some m => exact ⟨rfl, endResult_next.1 (step_of_running hf hm ▸ h)⟩

theorem hostStep_of_record {s : State} {f : Fault} (h : s.faultRecord = some f) : hostStep s = (0, s) := by
  simp [hostStep, h]

theorem hostStep_of_fault {s : State} {f : Fault} (h : s.faultRecord = none) (hs : step s = .fault f) :
    hostStep s = (0, { s with faultRecord := some f }) := by
  simp [hostStep, h, hs]

/-! ## What every instruction keeps -/

/-- What no instruction changes but by drawing free values: the parameters, the hook, the fault record and the total
(R8, R14, R535, R586). -/
structure State.Carries (s t : State) : Prop where
  params : t.params = s.params
  hook : t.hook = s.hook
  record : t.faultRecord = s.faultRecord
  total : t.totalCycles = s.totalCycles
  draws : s.draws ≤ t.draws

theorem State.Carries.trans {s t u : State} (h : s.Carries t) (h' : t.Carries u) : s.Carries u :=
  ⟨h'.params.trans h.params, h'.hook.trans h.hook, h'.record.trans h.record, h'.total.trans h.total,
    Nat.le_trans h.draws h'.draws⟩

theorem State.Before.carries {s u : State} (h : s.Before u) : s.Carries u :=
  ⟨h.params, h.hook, h.record, h.total, h.draws⟩

theorem State.enterException_carries (s : State) (k : ExceptionKind) (lr : Word) :
    s.Carries (s.enterException k lr) := by
  constructor <;> by_cases hk : k = .reset <;> simp [State.enterException, State.enterMode, hk]

/-- Every end of an instruction carries what no instruction changes. -/
theorem State.Ends.carries {s t : State} (h : s.Ends t) : s.Carries t := by
  cases h with
  | fetch u q b h k => exact h.carries.trans ⟨rfl, rfl, rfl, rfl, Nat.le_refl _⟩
  | branch u x h => exact h.carries.trans ⟨rfl, rfl, rfl, rfl, Nat.le_refl _⟩
  | enter u k lr h => exact h.carries.trans (u.enterException_carries k lr)

/-- Settles O13: the instruction carries what it got from the start of the step, whose draw makes the counter
advance, and the end of the step adds the cycles to the total. -/
theorem stepKeeps : Obligations.StepKeeps := by
  intro s t h
  obtain ⟨hf, u, hu, rfl⟩ := step_next h
  have c := (exec_ends _ _ u hu).carries
  refine ⟨c.params, c.hook, hf, c.record.trans hf, ?_, c.draws⟩
  simp [c.total]

/-- Settles O5: each part is one of the answers of `step` and `hostStep`. -/
theorem stepStops : Obligations.StepStops :=
  ⟨fun _ _ h => ⟨step_of_record h, hostStep_of_record h⟩, fun _ => step_of_invalidMode,
    fun _ _ => hostStep_of_fault⟩

/-! ## Reset -/

/-- `set_pc` in ARM state fills the latches from the aligned address, where the next instruction is, and charges the
two fetches to the total (R190, R572). -/
theorem State.setPc_arm {s : State} (ht : s.cpsr.t = false) (x : Word) :
    let t := s.setPc x
    let a := alignTo .word x
    t.decoded = t.portRead .code a .word ∧ t.fetched = t.portRead .code (a + 4) .word ∧ t.pc = a + 4 + 4 ∧
    t.instrAddr = a ∧
    t.totalCycles = s.totalCycles + (s.params.cost a .word .code .nonSeq + s.params.cost (a + 4) .word .code .seq) := by
  have hw : s.opWidth = .word := by simp [State.opWidth, ht]
  have hs : s.opSize = 4 := by simp [State.opSize, ht]
  rw [← hw, ← hs]
  have hl := (s.afterDraws 1).refill_latches x
  exact ⟨hl.1, hl.2, rfl, (s.afterDraws 1).refill_instrAddr x, rfl⟩

/-- Settles O9: `reset_registers` is its own definition, every field of the reset machine is read off the
construction, and the pipeline is that of `set_pc` at the Reset vector. -/
theorem resetState : Obligations.ResetState := by
  refine ⟨fun _ => rfl, fun m p h => ?_, ⟨rfl, rfl, rfl, rfl, rfl⟩, by decide⟩
  obtain ⟨hd, hf, hpc, ha, ht⟩ := State.setPc_arm
    (s := { State.reset with mem := m, params := p, totalCycles := 0, draws := 0 }.resetRegisters) rfl 0
  simp only [hardwareReset, h]
  exact ⟨rfl, rfl, rfl, rfl, hd, hf, hpc, ha, rfl, rfl, rfl, rfl, rfl, ht.trans (Nat.zero_add _)⟩

end Sys2Proof.Machine

/-! # The two policies agree where `fault` goes on (00_scope.md R13)

Two runs side by side: from `s` under `fault` and from `s.implementing`, which is `s` but for its policy. Every read of
a state is blind to the policy and every update commutes with the change of it, so the runs can part only at a U-case,
and one that arises stops the run under `fault`. -/

namespace Sys2Proof.Machine

/-- The state with `UNPRED_POLICY = implement` (R8). -/
def State.implementing (s : State) : State := { s with params := { s.params with unpred := .implement } }

/-! ## Reads are blind to the policy -/

variable (s : State)

@[simp] theorem State.implementing_unpred : s.implementing.params.unpred = .implement := rfl

@[simp] theorem State.implementing_cpsr : s.implementing.cpsr = s.cpsr := rfl

@[simp] theorem State.implementing_bank : s.implementing.bank = s.bank := rfl

@[simp] theorem State.implementing_readBank (b : Bank) (r : RegNum) :
    s.implementing.readBank b r = s.readBank b r := rfl

@[simp] theorem State.implementing_readReg (r : RegNum) : s.implementing.readReg r = s.readReg r := rfl

@[simp] theorem State.implementing_blockValue (b : Bank) (r : RegNum) :
    s.implementing.blockValue b r = s.blockValue b r := rfl

@[simp] theorem State.implementing_memRead (a : Word) (w : Width) : s.implementing.memRead a w = s.memRead a w := rfl

@[simp] theorem State.implementing_loadWordRotated (a : Word) :
    s.implementing.loadWordRotated a = s.loadWordRotated a := rfl

@[simp] theorem State.implementing_dpOut (op : DpOp) (rn : RegNum) (o : Operand2) :
    s.implementing.dpOut op rn o = s.dpOut op rn o := by
  cases o <;> rfl

@[simp] theorem State.implementing_sdtAddress (ix : Indexing) (u : Bool) (rn : RegNum) (o : Offset) :
    s.implementing.sdtAddress ix u rn o = s.sdtAddress ix u rn o := by
  cases o <;> rfl

@[simp] theorem State.implementing_hwAddress (p u w : Bool) (rn : RegNum) (o : HwOffset) :
    s.implementing.hwAddress p u w rn o = s.hwAddress p u w rn o := by
  cases o <;> rfl

/-! ## Updates commute with the change of policy -/

@[simp] theorem State.implementing_internal (k : Nat) :
    s.implementing.internal k = (s.internal k).implementing := rfl

@[simp] theorem State.implementing_chargeData (a : Word) (w : Width) (q : Seq) :
    s.implementing.chargeData a w q = (s.chargeData a w q).implementing := rfl

@[simp] theorem State.implementing_memWrite (a : Word) (w : Width) (v : Word) (q : Seq) :
    s.implementing.memWrite a w v q = (s.memWrite a w v q).implementing := rfl

@[simp] theorem State.implementing_fetchNext (q : Seq) :
    s.implementing.fetchNext q = (s.fetchNext q).implementing := rfl

@[simp] theorem State.implementing_branchTo (x : Word) :
    s.implementing.branchTo x = (s.branchTo x).implementing := rfl

@[simp] theorem State.implementing_afterDraws (k : Nat) :
    s.implementing.afterDraws k = (s.afterDraws k).implementing := rfl

@[simp] theorem State.implementing_setFlags (o : AluOut) :
    s.implementing.setFlags o = (s.setFlags o).implementing := rfl

@[simp] theorem State.implementing_setMulFlags (x : Word) :
    s.implementing.setMulFlags x = (s.setMulFlags x).implementing := rfl

@[simp] theorem State.implementing_setLongMulFlags (x : BitVec 64) :
    s.implementing.setLongMulFlags x = (s.setLongMulFlags x).implementing := rfl

@[simp] theorem State.implementing_writeBank (b : Bank) (r : RegNum) (v : Word) :
    s.implementing.writeBank b r v = (s.writeBank b r v).implementing := by
  unfold State.writeBank
  cases b.reg r <;> rfl

@[simp] theorem State.implementing_writeReg (r : RegNum) (v : Word) :
    s.implementing.writeReg r v = (s.writeReg r v).implementing := s.implementing_writeBank s.bank r v

theorem State.implementing_writeReg_fetchNext (r : RegNum) (v : Word) (q : Seq) :
    (s.implementing.writeReg r v).fetchNext q = ((s.writeReg r v).fetchNext q).implementing := by
  simp

@[simp] theorem State.implementing_writeBack (r : RegNum) (a : Address) :
    s.implementing.writeBack r a = (s.writeBack r a).implementing := by
  unfold State.writeBack
  split
  · exact s.implementing_writeReg r _
  · rfl

@[simp] theorem State.implementing_blockBase (wb : Option (RegNum × Word)) :
    s.implementing.blockBase wb = (s.blockBase wb).implementing := by
  cases wb
  · rfl
  · exact s.implementing_writeReg _ _

theorem State.implementing_storeList (b : Bank) (q : Seq) (wb : Option (RegNum × Word)) (ts : List (RegNum × Word)) :
    s.implementing.storeList b q wb ts = (s.storeList b q wb ts).implementing := by
  induction ts generalizing s q wb with
  | nil => rfl
  | cons t ts ih => simp [State.storeList, ih]

theorem State.implementing_loadList (b : Bank) (q : Seq) (wb : Option (RegNum × Word)) (ts : List (RegNum × Word)) :
    s.implementing.loadList b q wb ts = (s.loadList b q wb ts).implementing := by
  induction ts generalizing s q wb with
  | nil => rfl
  | cons t ts ih => simp [State.loadList, ih]

@[simp] theorem State.implementing_blockStore (b : Bank) (m : BlockMode) (w : Bool) (rn : RegNum) (rl : BitVec 16) :
    s.implementing.blockStore b m w rn rl = (s.blockStore b m w rn rl).implementing :=
  congrArg (State.fetchNext · .nonSeq) (s.implementing_storeList b _ _ _)

@[simp] theorem State.implementing_blockLoad (b : Bank) (m : BlockMode) (w : Bool) (rn : RegNum) (rl : BitVec 16) :
    s.implementing.blockLoad b m w rn rl = (s.blockLoad b m w rn rl).implementing :=
  congrArg (State.internal · 1) (s.implementing_loadList b _ _ _)

@[simp] theorem State.implementing_loadTail (ea : Word) (w : Width) (rn : RegNum) (a : Address) :
    s.implementing.loadTail ea w rn a = (s.loadTail ea w rn a).implementing :=
  ((s.chargeData ea w .nonSeq).internal 1).implementing_writeBack rn a

@[simp] theorem State.implementing_storeTail (ea : Word) (w : Width) (v : Word) (rn : RegNum) (a : Address) :
    s.implementing.storeTail ea w v rn a = (s.storeTail ea w v rn a).implementing :=
  congrArg (State.fetchNext · .nonSeq) ((s.memWrite ea w v .nonSeq).implementing_writeBack rn a)

@[simp] theorem State.implementing_enterException (k : ExceptionKind) (lr : Word) :
    s.implementing.enterException k lr = (s.enterException k lr).implementing := by
  cases k <;> rfl

@[simp] theorem State.implementing_putHi (hd : RegNum) (res : Word) :
    s.implementing.putHi hd res = (s.putHi hd res).implementing := by
  unfold State.putHi
  split <;> simp

/-! ## Agreement of two outcomes -/

/-- Where the first outcome is a next state, the second is that state with the other policy. -/
def Agree (r r' : Result State) : Prop := Leads r fun t => r' = .next t.implementing

theorem agree_next {t t' : State} (h : t' = t.implementing) : Agree (.next t) (.next t') :=
  leads_next (congrArg _ h)

theorem agree_fault (f : Fault) (r' : Result State) : Agree (.fault f) r' := leads_fault f

/-- U-cases that do not stop the run under `fault` do not arise, so they stop no run (R13). -/
theorem firstStop_implement {ks : List Check} (h : firstStop .fault ks = none) : firstStop .implement ks = none := by
  rw [firstStop_eq_none]
  intro k hk hh
  simp [firstStop_fault h k hk] at hh

section
variable {s} {r r' : Result State} (hp : s.params.unpred = .fault)
include hp

theorem agree_guarded (ks : List Check) (h : Agree r r') : Agree (s.guarded ks r) (s.implementing.guarded ks r') :=
  leads_guarded fun hg t e => by
    rw [State.guarded_of_none _ (firstStop_implement (hp ▸ hg))]
    exact h t e

theorem agree_underCond (c : Cond) (h : Agree r r') : Agree (s.underCond c r) (s.implementing.underCond c r') := by
  refine agree_guarded hp [⟨.u1, false, c == .nv⟩] ?_
  rw [State.implementing_cpsr]
  split
  · exact h
  · exact agree_next rfl

/-- The shape of most ARM instructions: the condition, the U-cases, a next state. -/
theorem agree_arm (c : Cond) (ks : List Check) {t t' : State} (h : t' = t.implementing) :
    Agree (s.underCond c (s.guarded ks (.next t)))
      (s.implementing.underCond c (s.implementing.guarded ks (.next t'))) :=
  agree_underCond hp c (agree_guarded hp ks (agree_next h))

theorem writePc_agree (u : State) (x : Word) : Agree (s.writePc u x) (s.implementing.writePc u.implementing x) :=
  agree_guarded hp _ (agree_next rfl)

theorem exceptionReturn_agree (u : State) (x : Word) :
    Agree (s.exceptionReturn u x) (s.implementing.exceptionReturn u.implementing x) :=
  agree_guarded hp _ (agree_next rfl)

theorem raise_agree (h : s.hook = none) (k : ExceptionKind) (lr : Word) :
    Agree (s.raise k lr) (s.implementing.raise k lr) := by
  have h' : s.implementing.hook = none := h
  simp only [State.raise, h, h']
  exact agree_guarded hp _ (agree_next (by simp))

theorem undefinedTrap_agree (h : s.hook = none) : Agree s.undefinedTrap s.implementing.undefinedTrap :=
  raise_agree (s := s.internal 1) hp h _ _

theorem softwareInterrupt_agree (h : s.hook = none) : Agree s.softwareInterrupt s.implementing.softwareInterrupt :=
  raise_agree hp h _ _

/-! ## ARM instructions -/

theorem dpWrite_agree (c : Cond) (op : DpOp) (sf : Bool) (rn rd : RegNum) (o : Operand2) :
    Agree (s.dpWrite c op sf rn rd o) (s.implementing.dpWrite c op sf rn rd o) := by
  refine agree_underCond hp c (agree_guarded hp _ ?_)
  by_cases hd : rd = 15
  · cases sf
    · simp only [hd]
      exact writePc_agree hp _ _
    · simp only [hd]
      exact exceptionReturn_agree hp _ _
  · simp only [hd, if_false]
    cases sf
    · exact agree_next (by simp)
    · exact agree_next (by simp)

theorem dpTest_agree (c : Cond) (op : DpOp) (rn sbz : RegNum) (o : Operand2) :
    Agree (s.dpTest c op rn sbz o) (s.implementing.dpTest c op rn sbz o) :=
  agree_arm hp c _ rfl

theorem moveFromPsr_agree (c : Cond) (r : Bool) (sbo : BitVec 4) (rd : RegNum) (sbzHi sbzLo : BitVec 4) :
    Agree (s.moveFromPsr c r sbo rd sbzHi sbzLo) (s.implementing.moveFromPsr c r sbo rd sbzHi sbzLo) :=
  agree_arm hp c _ ((s.afterDraws (s.psrDraws r)).implementing_writeReg_fetchNext rd _ _)

theorem moveToPsr_agree (c : Cond) (r : Bool) (mask : BitVec 4) (v : Word) (ks : List Check) :
    Agree (s.moveToPsr c r mask v ks) (s.implementing.moveToPsr c r mask v ks) :=
  agree_arm hp c _ (by cases r <;> rfl)

theorem multiply_agree (c : Cond) (ks : List Check) (named : List RegNum) (sf : Bool) (rd rm : RegNum) (res : Word)
    (k : Nat) :
    Agree (s.multiply c ks named sf rd rm res k) (s.implementing.multiply c ks named sf rd rm res k) :=
  agree_arm hp c _ (by cases sf <;> simp)

theorem multiplyLong_agree (c : Cond) (sf : Bool) (rdHi rdLo rs rm : RegNum) (res : BitVec 64) (k : Nat) :
    Agree (s.multiplyLong c sf rdHi rdLo rs rm res k) (s.implementing.multiplyLong c sf rdHi rdLo rs rm res k) :=
  agree_arm hp c _ (by cases sf <;> simp)

theorem swap_agree (c : Cond) (rn rd sbz rm : RegNum) (ea : Word) (w : Width) (old : Word) (ks : List Check) :
    Agree (s.swap c rn rd sbz rm ea w old ks) (s.implementing.swap c rn rd sbz rm ea w old ks) :=
  agree_arm hp c _ (by simp)

theorem branchExchange_agree (c : Cond) (sbo : BitVec 12) (rm : RegNum) :
    Agree (s.branchExchange c sbo rm) (s.implementing.branchExchange c sbo rm) :=
  agree_arm hp c _ rfl

theorem ldr_agree (c : Cond) (ix : Indexing) (u : Bool) (rn rd : RegNum) (o : Offset) :
    Agree (s.ldr c ix u rn rd o) (s.implementing.ldr c ix u rn rd o) := by
  refine agree_underCond hp c (agree_guarded hp _ ?_)
  split
  · rw [State.implementing_loadTail]
    exact writePc_agree hp _ _
  · exact agree_next (by simp)

theorem ldrb_agree (c : Cond) (ix : Indexing) (u : Bool) (rn rd : RegNum) (o : Offset) :
    Agree (s.ldrb c ix u rn rd o) (s.implementing.ldrb c ix u rn rd o) :=
  agree_arm hp c _ (by simp)

theorem str_agree (c : Cond) (ix : Indexing) (u : Bool) (rn rd : RegNum) (o : Offset) :
    Agree (s.str c ix u rn rd o) (s.implementing.str c ix u rn rd o) :=
  agree_arm hp c _ (s.implementing_storeTail _ _ _ _ _)

theorem strb_agree (c : Cond) (ix : Indexing) (u : Bool) (rn rd : RegNum) (o : Offset) :
    Agree (s.strb c ix u rn rd o) (s.implementing.strb c ix u rn rd o) :=
  agree_arm hp c _ (s.implementing_storeTail _ _ _ _ _)

theorem hwLoad_agree (c : Cond) (p u w : Bool) (rn rd : RegNum) (sbz : BitVec 4) (o : HwOffset) (ea : Word)
    (wd : Width) (data : Word) (ks : List Check) :
    Agree (s.hwLoad c p u w rn rd sbz o ea wd data ks) (s.implementing.hwLoad c p u w rn rd sbz o ea wd data ks) :=
  agree_arm hp c _ (by simp)

theorem strh_agree (c : Cond) (p u w : Bool) (rn rd : RegNum) (sbz : BitVec 4) (o : HwOffset) :
    Agree (s.strh c p u w rn rd sbz o) (s.implementing.strh c p u w rn rd sbz o) :=
  agree_arm hp c _ (s.implementing_storeTail _ _ _ _ _)

theorem reservedHalfword_agree (c : Cond) : Agree (s.reservedHalfword c) (s.implementing.reservedHalfword c) :=
  agree_underCond hp c (agree_fault _ _)

theorem stm_agree (c : Cond) (m : BlockMode) (w : Bool) (rn : RegNum) (rl : BitVec 16) :
    Agree (s.stm c m w rn rl) (s.implementing.stm c m w rn rl) :=
  agree_arm hp c _ (s.implementing_blockStore _ _ _ _ _)

theorem stmUser_agree (c : Cond) (m : BlockMode) (w : Bool) (rn : RegNum) (rl : BitVec 16) :
    Agree (s.stmUser c m w rn rl) (s.implementing.stmUser c m w rn rl) :=
  agree_arm hp c _ (s.implementing_blockStore _ _ _ _ _)

theorem ldm_agree (c : Cond) (m : BlockMode) (w : Bool) (rn : RegNum) (rl : BitVec 16) :
    Agree (s.ldm c m w rn rl) (s.implementing.ldm c m w rn rl) := by
  refine agree_underCond hp c (agree_guarded hp _ ?_)
  rw [State.implementing_blockLoad]
  split
  · exact writePc_agree hp _ _
  · exact agree_next rfl

theorem ldmUser_agree (c : Cond) (m : BlockMode) (w : Bool) (rn : RegNum) (rl : BitVec 15) :
    Agree (s.ldmUser c m w rn rl) (s.implementing.ldmUser c m w rn rl) := by
  refine agree_underCond hp c (agree_guarded hp _ ?_)
  rw [State.implementing_blockLoad]
  split
  · exact writePc_agree hp _ _
  · exact agree_next rfl

theorem ldmRet_agree (c : Cond) (m : BlockMode) (w : Bool) (rn : RegNum) (rl : BitVec 15) :
    Agree (s.ldmRet c m w rn rl) (s.implementing.ldmRet c m w rn rl) := by
  refine agree_underCond hp c (agree_guarded hp _ ?_)
  rw [State.implementing_blockLoad]
  exact exceptionReturn_agree hp _ _

theorem branch_agree (c : Cond) (off : BitVec 24) : Agree (s.branch c off) (s.implementing.branch c off) :=
  agree_underCond hp c (agree_next rfl)

theorem branchLink_agree (c : Cond) (off : BitVec 24) :
    Agree (s.branchLink c off) (s.implementing.branchLink c off) :=
  agree_arm hp c _ (congrArg (State.branchTo · _) (s.implementing_writeReg 14 _))

theorem swi_agree (h : s.hook = none) (c : Cond) :
    Agree (s.underCond c s.softwareInterrupt) (s.implementing.underCond c s.implementing.softwareInterrupt) :=
  agree_underCond hp c (softwareInterrupt_agree hp h)

theorem undefined_agree (h : s.hook = none) (c : Cond) :
    Agree (s.underCond c s.undefinedTrap) (s.implementing.underCond c s.implementing.undefinedTrap) :=
  agree_underCond hp c (undefinedTrap_agree hp h)

theorem coprocessor_agree (h : s.hook = none) (c : Cond) :
    Agree (s.coprocessor c) (s.implementing.coprocessor c) := by
  refine agree_underCond hp c ?_
  have hc : s.implementing.params.coproc = s.params.coproc := rfl
  rw [hc]
  cases s.params.coproc
  · exact undefinedTrap_agree hp h
  · exact agree_fault _ _

/-! ## THUMB instructions with U-cases -/

/-- The shape of most THUMB instructions that have U-cases. -/
theorem agree_thumb (ks : List Check) {t t' : State} (h : t' = t.implementing) :
    Agree (s.guarded ks (.next t)) (s.implementing.guarded ks (.next t')) :=
  agree_guarded hp ks (agree_next h)

theorem thumbAddHi_agree (h1 h2 : Bool) (rs rd : LowReg) :
    Agree (s.thumbAddHi h1 h2 rs rd) (s.implementing.thumbAddHi h1 h2 rs rd) :=
  agree_thumb hp _ (s.implementing_putHi _ _)

theorem thumbCmpHi_agree (h1 h2 : Bool) (rs rd : LowReg) :
    Agree (s.thumbCmpHi h1 h2 rs rd) (s.implementing.thumbCmpHi h1 h2 rs rd) :=
  agree_thumb hp _ rfl

theorem thumbMovHi_agree (h1 h2 : Bool) (rs rd : LowReg) :
    Agree (s.thumbMovHi h1 h2 rs rd) (s.implementing.thumbMovHi h1 h2 rs rd) :=
  agree_thumb hp _ (s.implementing_putHi _ _)

theorem thumbAddSp_agree (rd : LowReg) (word8 : Byte) :
    Agree (s.thumbAddSp rd word8) (s.implementing.thumbAddSp rd word8) :=
  agree_thumb hp _ (s.implementing_writeReg_fetchNext _ _ _)

theorem thumbMoveSp_agree (sp : Word) : Agree (s.thumbMoveSp sp) (s.implementing.thumbMoveSp sp) :=
  agree_thumb hp _ (s.implementing_writeReg_fetchNext _ _ _)

theorem thumbBx_agree (h2 : Bool) (rs : LowReg) (sbz : BitVec 3) :
    Agree (s.thumbBx h2 rs sbz) (s.implementing.thumbBx h2 rs sbz) :=
  agree_thumb hp _ rfl

theorem thumbLoad_agree (ks : List Check) (ea : Word) (w : Width) (rd : LowReg) (data : Word) :
    Agree (s.thumbLoad ks ea w rd data) (s.implementing.thumbLoad ks ea w rd data) :=
  agree_thumb hp _ (((s.chargeData ea w .nonSeq).internal 1).implementing_writeReg_fetchNext _ _ _)

theorem thumbStore_agree (ks : List Check) (ea : Word) (w : Width) (v : Word) :
    Agree (s.thumbStore ks ea w v) (s.implementing.thumbStore ks ea w v) :=
  agree_thumb hp _ rfl

theorem thumbStm_agree (m : BlockMode) (rb : RegNum) (rl : BitVec 16) :
    Agree (s.thumbStm m rb rl) (s.implementing.thumbStm m rb rl) :=
  agree_thumb hp _ (s.implementing_blockStore _ _ _ _ _)

theorem pop_agree (r : Bool) (rl : Byte) : Agree (s.pop r rl) (s.implementing.pop r rl) := by
  refine agree_thumb hp _ ?_
  rw [State.implementing_blockLoad]
  cases r <;> rfl

theorem thumbLdm_agree (rb : LowReg) (rl : Byte) : Agree (s.thumbLdm rb rl) (s.implementing.thumbLdm rb rl) :=
  agree_thumb hp _ (congrArg (State.fetchNext · .seq) (s.implementing_blockLoad _ _ _ _ _))

theorem thumbBlHigh_agree (off : BitVec 11) : Agree (s.thumbBlHigh off) (s.implementing.thumbBlHigh off) :=
  agree_thumb hp _ (s.implementing_writeReg_fetchNext _ _ _)

theorem thumbBlLow_agree (off : BitVec 11) : Agree (s.thumbBlLow off) (s.implementing.thumbBlLow off) :=
  agree_thumb hp _ (congrArg (State.branchTo · _) (s.implementing_writeReg 14 _))

end

/-! ## THUMB instructions without U-cases -/

theorem putLow_agree (rd : LowReg) (v : Word) : Agree (s.putLow rd v) (s.implementing.putLow rd v) :=
  agree_next (s.implementing_writeReg_fetchNext _ _ _)

theorem thumbBranchCond_agree (c : Cond) (off : Byte) :
    Agree (s.thumbBranchCond c off) (s.implementing.thumbBranchCond c off) := by
  refine agree_next ?_
  rw [State.implementing_cpsr]
  split <;> rfl

/-! ## All instructions -/

/-- An instruction agrees with itself under the two policies. -/
theorem exec_agree {s : State} (hp : s.params.unpred = .fault) (hh : s.hook = none) (i : Instr) :
    Agree (exec i s) (exec i s.implementing) := by
  cases i with
  | andImm | andShift | andRegShift | eorImm | eorShift | eorRegShift | subImm | subShift | subRegShift | rsbImm
  | rsbShift | rsbRegShift | addImm | addShift | addRegShift | adcImm | adcShift | adcRegShift | sbcImm | sbcShift
  | sbcRegShift | rscImm | rscShift | rscRegShift | orrImm | orrShift | orrRegShift | movImm | movShift | movRegShift
  | bicImm | bicShift | bicRegShift | mvnImm | mvnShift | mvnRegShift => exact dpWrite_agree hp _ _ _ _ _ _
  | tstImm | tstShift | tstRegShift | teqImm | teqShift | teqRegShift | cmpImm | cmpShift | cmpRegShift | cmnImm
  | cmnShift | cmnRegShift => exact dpTest_agree hp _ _ _ _ _
  | mrs => exact moveFromPsr_agree hp _ _ _ _ _ _
  | msrReg | msrImm => exact moveToPsr_agree hp _ _ _ _ _
  | mul | mla => exact multiply_agree hp _ _ _ _ _ _ _ _
  | umull | umlal | smull | smlal => exact multiplyLong_agree hp _ _ _ _ _ _ _ _
  | swp | swpb => exact swap_agree hp _ _ _ _ _ _ _ _ _
  | bx => exact branchExchange_agree hp _ _ _
  | strImmPre | strImmPost | strRegPre | strRegPost | strtImm | strtReg => exact str_agree hp _ _ _ _ _ _
  | strbImmPre | strbImmPost | strbRegPre | strbRegPost | strbtImm | strbtReg => exact strb_agree hp _ _ _ _ _ _
  | ldrImmPre | ldrImmPost | ldrRegPre | ldrRegPost | ldrtImm | ldrtReg => exact ldr_agree hp _ _ _ _ _ _
  | ldrbImmPre | ldrbImmPost | ldrbRegPre | ldrbRegPost | ldrbtImm | ldrbtReg => exact ldrb_agree hp _ _ _ _ _ _
  | strhReg | strhImm => exact strh_agree hp _ _ _ _ _ _ _ _
  | ldrhReg | ldrhImm | ldrsbReg | ldrsbImm | ldrshReg | ldrshImm => exact hwLoad_agree hp _ _ _ _ _ _ _ _ _ _ _ _
  | reservedLsh10Reg | reservedLsh10Imm | reservedLsh11Reg | reservedLsh11Imm => exact reservedHalfword_agree hp _
  | stmda | stmia | stmdb | stmib => exact stm_agree hp _ _ _ _ _
  | ldmda | ldmia | ldmdb | ldmib => exact ldm_agree hp _ _ _ _ _
  | stmdaUser | stmiaUser | stmdbUser | stmibUser => exact stmUser_agree hp _ _ _ _ _
  | ldmdaUser | ldmiaUser | ldmdbUser | ldmibUser => exact ldmUser_agree hp _ _ _ _ _
  | ldmdaRet | ldmiaRet | ldmdbRet | ldmibRet => exact ldmRet_agree hp _ _ _ _ _
  | b => exact branch_agree hp _ _
  | bl => exact branchLink_agree hp _ _
  | swi => exact swi_agree hp hh _
  | cdp | ldc | stc | mcr | mrc => exact coprocessor_agree hp hh _
  | undMul | undMisc1 | undMisc23 | undMisc45 | undMiscHigh | undSwapOdd | undSwapW | undMisc1Row16 | undSwapHigh
  | undPsrImm | undMedia => exact undefined_agree hp hh _
  | tLslImm | tLsrImm | tAsrImm => exact putLow_agree (s.setNZC _ _) _ _
  | tLsl | tLsr | tAsr | tRor => exact putLow_agree ((s.internal 1).setNZC _ _) _ _
  | tAddReg | tSubReg | tAddImm3 | tSubImm3 | tAddImm8 | tSubImm8 | tAdc | tSbc | tNeg =>
    exact putLow_agree (s.setFlags _) _ _
  | tMovImm8 | tAnd | tEor | tOrr | tBic | tMvn => exact putLow_agree (s.setNZ _) _ _
  | tMul => exact putLow_agree ((s.internal _).setMulFlags _) _ _
  | tCmpImm8 | tCmp | tCmn | tTst => exact agree_next rfl
  | tAddHi => exact thumbAddHi_agree hp _ _ _ _
  | tCmpHi => exact thumbCmpHi_agree hp _ _ _ _
  | tMovHi => exact thumbMovHi_agree hp _ _ _ _
  | tBx => exact thumbBx_agree hp _ _ _
  | tBxH1 => exact agree_fault _ _
  | tLdrPc | tLdrReg | tLdrImm | tLdrbReg | tLdrbImm | tLdsbReg => exact thumbLoad_agree hp [] _ _ _ _
  | tLdrhReg | tLdrhImm | tLdshReg | tLdrSp => exact thumbLoad_agree hp _ _ _ _ _
  | tStrReg | tStrhReg | tStrbReg | tStrImm | tStrbImm | tStrhImm | tStrSp => exact thumbStore_agree hp _ _ _ _
  | tAddPc => exact putLow_agree s _ _
  | tAddSp => exact thumbAddSp_agree hp _ _
  | tIncSp | tDecSp => exact thumbMoveSp_agree hp _
  | tPush | tStmia => exact thumbStm_agree hp _ _ _
  | tPop => exact pop_agree hp _ _
  | tLdmia => exact thumbLdm_agree hp _ _
  | tBeq | tBne | tBcs | tBcc | tBmi | tBpl | tBvs | tBvc | tBhi | tBls | tBge | tBlt | tBgt | tBle =>
    exact thumbBranchCond_agree s _ _
  | tSwi => exact softwareInterrupt_agree hp hh
  | tB => exact agree_next rfl
  | tBlHigh => exact thumbBlHigh_agree hp _
  | tBlLow => exact thumbBlLow_agree hp _
  | tUndB1 | tUndB2 | tUndB6 | tUndB8 | tUndBe | tUndDe | tUndE8 => exact undefinedTrap_agree hp hh

/-- Settles O15: the two runs read the same values and stop at the same U-cases, instruction by instruction. -/
theorem policyAgrees : Obligations.PolicyAgrees :=
  fun i _ t hh hp e => exec_agree hp hh i t e

end Sys2Proof.Machine

/-! # The U-cases the policy decides stop the model under `fault` (00_scope.md R13)

One lemma for each U-case. Each evaluates the list of U-cases of its instruction: the hypotheses settle every entry, and
the one that holds is the one named. -/

namespace Sys2Proof.Machine

/-! ## Addresses -/

/-- An address is misaligned where it is no multiple of 4 (R88, R89). -/
theorem misaligned4_iff (a : Word) : misaligned4 a = true ↔ a.toNat % 4 ≠ 0 := by
  have h0 : a.getLsbD 0 = decide (a.toNat % 2 = 1) := Nat.testBit_zero _
  have h1 : a.getLsbD 1 = decide (a.toNat / 2 % 2 = 1) := by
    simp [BitVec.getLsbD, Nat.testBit_succ]
  simp only [misaligned4, h0, h1, Bool.or_eq_true, decide_eq_true_eq]
  omega

/-- Two ranges of addresses meet where the start of one lies in the other; addresses wrap (R80). -/
theorem ranges_meet (a b : Word) {n m : Nat} (hn : 0 < n) (hm : 0 < m) (hs : n + m < 2 ^ 32) :
    ((a - b).toNat < m ∨ (b - a).toNat < n) ↔
      ∃ i j : Nat, i < n ∧ j < m ∧ a + BitVec.ofNat 32 i = b + BitVec.ofNat 32 j := by
  constructor
  · rintro (h | h)
    · exact ⟨0, (a - b).toNat, hn, h, by bv_omega⟩
    · exact ⟨(b - a).toNat, 0, h, hm, by bv_omega⟩
  · rintro ⟨i, j, hi, hj, e⟩
    have e' := congrArg BitVec.toNat e
    simp only [BitVec.toNat_add, BitVec.toNat_ofNat, BitVec.toNat_sub] at e' ⊢
    omega

/-- A store meets the prefetch window where one of its bytes is one of the two next opcodes' (R97). -/
theorem State.hitsPrefetch_iff (s : State) (a : Word) (w : Width) : s.hitsPrefetch a w = true ↔
    ∃ i j : Nat, i < w.bytes ∧ j < 2 * s.opSize.toNat ∧
      a + BitVec.ofNat 32 i = s.instrAddr + s.opSize + BitVec.ofNat 32 j := by
  have hw : 0 < w.bytes ∧ w.bytes ≤ 4 := by cases w <;> decide
  have ho : 0 < s.opSize.toNat ∧ s.opSize.toNat ≤ 4 := by
    unfold State.opSize
    split <;> decide
  rw [← ranges_meet a _ hw.1 (by omega) (by omega)]
  simp [State.hitsPrefetch]

/-- The result of the ALU is that of the table of operations (R240). -/
theorem dpAlu_res (rule : AdcVRule) (op : DpOp) (l r : Word) (sc : Bool) (p : Psr) :
    (dpAlu rule op l r sc p).res = dpResult op l r p.c := by
  have hadd (c : Bool) : (addWithCarry l r c).res = l + r + (if c then 1 else 0) := by cases c <;> simp [addWithCarry]
  have hadc : (adc rule l r p.c).res = l + r + (if p.c then 1 else 0) := by cases rule <;> exact hadd _
  have hsbc (x y : Word) : (sbc x y p.c).res = x - y - (if p.c then 0 else 1) := by cases p.c <;> simp [sbc]
  cases op with
  | add | cmn => simp [dpAlu, dpResult, hadd]
  | adc => exact hadc
  | sbc | rsc => exact hsbc _ _
  | _ => rfl

/-! ## Stopping with a U-case -/

/-- An outcome is the fault of a U-case at the address of the executing instruction (R13, R14). -/
def State.StopsAs (s : State) (r : Result State) (u : UCase) : Prop := r = .fault (.unpredictable u s.instrAddr)

section
variable {s : State} {c : Cond} (hp : s.params.unpred = .fault)
include hp

theorem stopsAs_guarded {ks : List Check} {u : UCase} {r : Result State} (h : firstStop .fault ks = some u) :
    s.StopsAs (s.guarded ks r) u := by
  simp [State.StopsAs, State.guarded, hp, h]

theorem stopsAs_arm (hc : c.passes s.cpsr = true) {ks : List Check} {u : UCase} {r : Result State}
    (h : firstStop .fault ks = some u) : s.StopsAs (s.underCond c (s.guarded ks r)) u := by
  rw [State.underCond_of_passes _ hc]
  exact stopsAs_guarded hp h

variable (hc : c.passes s.cpsr = true)
include hc

/-! ## The U-cases of the operands alone -/

/-- U4: R15 as Rm of a register-specified shift (R230, R260). -/
theorem regShift_u4 (op : DpOp) (sf : Bool) (rn rd rs : RegNum) (k : ShiftKind)
    (hn : op.ignoresRn = true → rn = 0#4) (ht : op.isTest = true → rd = 0#4) :
    s.StopsAs (exec ((Operand2.regShift rs k 15).instr op c sf rn rd) s) .u4 := by
  rw [exec_dp]
  split
  · next h => exact stopsAs_arm hp hc (by simp [firstStop, State.dpTestChecks, Operand2.checks, ht h])
  · exact stopsAs_arm hp hc (by simpa [firstStop, State.dpWriteChecks, Operand2.checks] using hn)

/-- U5: the Rd field of TST (R164). -/
theorem tst_u5 (sf : Bool) (rn sbz rot : BitVec 4) (imm : Byte) (h : sbz ≠ 0#4) :
    s.StopsAs (exec ((Operand2.imm rot imm).instr .tst c sf rn sbz) s) .u5 :=
  stopsAs_arm hp hc (by simp [firstStop, State.dpTestChecks, h])

/-- U6: Rd = Rm (R377). -/
theorem multiply_u6 (sf : Bool) (rd rn rs : RegNum) (h : 15#4 ∉ [rd, rn, rs]) :
    s.StopsAs (exec (.mul c sf rd 0 rs rd) s) .u6 ∧ s.StopsAs (exec (.mla c sf rd rn rs rd) s) .u6 := by
  simp only [List.mem_cons, List.not_mem_nil, or_false, not_or] at h
  obtain ⟨hd, hn, hs⟩ := h
  exact ⟨stopsAs_arm hp hc (by simp [firstStop, hd, hs]), stopsAs_arm hp hc (by simp [firstStop, hd, hn, hs])⟩

/-- U7: STRB of R15 (R314). -/
theorem strb_u7 (u : Bool) (rn : RegNum) (off : BitVec 12) :
    s.StopsAs (exec (.strbImmPre c u false rn 15 off) s) .u7 :=
  stopsAs_arm hp hc (by simp [firstStop, sdtChecks, State.sdtAddress, Offset.regs])

/-- U8: a load that writes back into Rd (R318). -/
theorem ldr_u8 (u : Bool) (rn : RegNum) (off : BitVec 12) (h : rn ≠ 15#4) :
    s.StopsAs (exec (.ldrImmPre c u true rn rn off) s) .u8 :=
  stopsAs_arm hp hc (by simp [firstStop, sdtChecks, State.sdtAddress, Offset.regs, h])

/-- U9: a store that writes back into Rd (R318). -/
theorem str_u9 (u : Bool) (rn : RegNum) (off : BitVec 12) (h : rn ≠ 15#4) :
    s.StopsAs (exec (.strImmPre c u true rn rn off) s) .u9 :=
  stopsAs_arm hp hc (by simp [firstStop, sdtChecks, State.sdtAddress, Offset.regs, h])

/-- U12: a word store at a misaligned address (R89). -/
theorem str_u12 (u : Bool) (rn rd : RegNum) (off : BitVec 12)
    (h : misaligned4 (s.sdtAddress (.pre false) u rn (.imm off)).addr = true) :
    s.StopsAs (exec (.strImmPre c u false rn rd off) s) .u12 :=
  stopsAs_arm hp hc (by simp [firstStop, sdtChecks, State.sdtAddress, Offset.regs] at h ⊢; simp [h])

/-- U13: a misaligned base of a block transfer (R350). -/
theorem block_u13 (m : BlockMode) (w : Bool) (rn : RegNum) (rl : BitVec 16) (hn : rn ≠ 15#4)
    (h : misaligned4 (s.readReg rn) = true) :
    s.StopsAs (exec (m.stm c w rn rl) s) .u13 ∧ s.StopsAs (exec (m.ldm c w rn rl) s) .u13 := by
  rw [exec_stm, exec_ldm]
  exact ⟨stopsAs_arm hp hc (by simp [firstStop, State.blockChecks, hn, h]),
    stopsAs_arm hp hc (by simp [firstStop, State.blockChecks, hn, h])⟩

/-- U14: an empty list (R350). -/
theorem block_u14 (m : BlockMode) (w : Bool) (rn : RegNum) (hn : rn ≠ 15#4) (h : misaligned4 (s.readReg rn) = false) :
    s.StopsAs (exec (m.stm c w rn 0) s) .u14 ∧ s.StopsAs (exec (m.ldm c w rn 0) s) .u14 := by
  rw [exec_stm, exec_ldm]
  exact ⟨stopsAs_arm hp hc (by simp [firstStop, State.blockChecks, hn, h]),
    stopsAs_arm hp hc (by simp [firstStop, State.blockChecks, hn, h])⟩

/-- U15: the base in the list of a load with write-back (R352). -/
theorem ldm_u15 (m : BlockMode) (rn : RegNum) (rl : BitVec 16) (hn : rn ≠ 15#4)
    (h : misaligned4 (s.readReg rn) = false) (hm : rn ∈ listRegs rl) :
    s.StopsAs (exec (m.ldm c true rn rl) s) .u15 := by
  have hb := (mem_listRegs rl rn).1 hm
  have h0 : rl ≠ 0#16 := by
    rintro rfl
    simp at hb
  rw [exec_ldm]
  exact stopsAs_arm hp hc (by simp [firstStop, State.blockChecks, baseInList, hn, h, h0, hb])

/-- U16: the User-bank forms in User and System mode (R353, R354). -/
theorem userBank_u16 (m : BlockMode) (rn : RegNum) (rl : BitVec 16) (rl' : BitVec 15) (hn : rn ≠ 15#4)
    (hs : s.hasSpsr = false) (h : misaligned4 (s.readReg rn) = false) (h0 : rl ≠ 0#16) (h0' : rl' ≠ 0#15) :
    s.StopsAs (exec (m.stmUser c false rn rl) s) .u16 ∧ s.StopsAs (exec (m.ldmUser c false rn rl') s) .u16 := by
  have hw : rl'.setWidth 16 ≠ 0#16 := fun e => h0' (by simpa using congrArg (BitVec.setWidth 15) e)
  rw [exec_stmUser, exec_ldmUser]
  exact ⟨stopsAs_arm hp hc (by simp [firstStop, State.blockChecks, State.userBankChecks, hn, h, h0, hs]),
    stopsAs_arm hp hc (by simp [firstStop, State.blockChecks, State.userBankChecks, hn, h, hw, hs])⟩

/-- U13: SWP at a misaligned address (R325). -/
theorem swp_u13 (rn rd rm : RegNum) (h15 : 15#4 ∉ [rn, rd, rm]) (hn : rn ∉ [rd, rm])
    (h : misaligned4 (s.readReg rn) = true) : s.StopsAs (exec (.swp c rn rd 0 rm) s) .u13 := by
  simp only [List.mem_cons, List.not_mem_nil, or_false, not_or, eq_comm (a := 15#4)] at h15 hn
  exact stopsAs_arm hp hc (by simp [firstStop, h15, hn, h])

/-- U23: a swap whose base is one of its other registers (R327). -/
theorem swap_u23 (rn rd rm : RegNum) (h15 : 15#4 ∉ [rn, rd, rm]) (hn : rn ∈ [rd, rm]) :
    s.StopsAs (exec (.swp c rn rd 0 rm) s) .u23 ∧ s.StopsAs (exec (.swpb c rn rd 0 rm) s) .u23 := by
  simp only [List.mem_cons, List.not_mem_nil, or_false, not_or, eq_comm (a := 15#4)] at h15 hn
  exact ⟨stopsAs_arm hp hc (by simp [firstStop, h15, hn]), stopsAs_arm hp hc (by simp [firstStop, h15, hn])⟩

/-! ## The U-cases behind U27, which needs LDM(2) before (R354) -/

section
variable (hz : s.userBankHazard = false)
include hz

/-- U3: MSR to the SPSR in User and System mode (R283). -/
theorem msrSpsr_u3 (mask : BitVec 4) (rm : RegNum) (h : s.hasSpsr = false) (hrm : rm ≠ 15#4) :
    s.StopsAs (exec (.msrReg c true mask 15 0 rm) s) .u3 :=
  stopsAs_arm hp hc (by simp [firstStop, State.msrChecks, State.hazardCheck_holds hz, h, hrm])

/-- U19: BX to ARM state with bit 1 of the target set (R392). -/
theorem bx_u19 (rm : RegNum) (h0 : (s.readReg rm).getLsbD 0 = false) (h1 : (s.readReg rm).getLsbD 1 = true) :
    s.StopsAs (exec (.bx c 0xFFF rm) s) .u19 :=
  stopsAs_arm hp hc (by simp only [firstStop, State.hazardCheck_holds hz, bxCheck, h0, h1]; rfl)

/-- U26: a word store into the two next opcodes (R97). -/
theorem str_u26 (u : Bool) (rn rd : RegNum) (off : BitVec 12)
    (h : misaligned4 (s.sdtAddress (.pre false) u rn (.imm off)).addr = false)
    (hh : s.hitsPrefetch (alignTo .word (s.sdtAddress (.pre false) u rn (.imm off)).addr) .word = true) :
    s.StopsAs (exec (.strImmPre c u false rn rd off) s) .u26 := by
  have hwb : (s.sdtAddress (.pre false) u rn (.imm off)).wb = false := rfl
  exact stopsAs_arm hp hc (by
    simp [firstStop, sdtChecks, Offset.regs, State.hazardCheck_holds hz, State.prefetchCheck, hwb, h, hh])

/-- U25: an ARM-state write of R15 that is not word-aligned (R192). -/
theorem dpWrite_u25 (op : DpOp) (rn rot : BitVec 4) (imm : Byte) (hop : op.isTest = false)
    (hn : op.ignoresRn = true → rn = 0#4) (ht : s.cpsr.t = false)
    (h : misaligned4 (dpResult op (s.readReg rn) ((Operand2.imm rot imm).value s).res s.cpsr.c) = true) :
    s.StopsAs (exec ((Operand2.imm rot imm).instr op c false rn 15) s) .u25 := by
  have hg : firstStop s.params.unpred (s.dpWriteChecks op rn 15 (.imm rot imm)) = none := by
    rw [hp]
    simpa [firstStop, State.dpWriteChecks, Operand2.checks, State.hazardCheck_holds hz] using hn
  have hres : (s.dpOut op rn (.imm rot imm)).res = dpResult op (s.readReg rn) ((Operand2.imm rot imm).value s).res
      s.cpsr.c := dpAlu_res _ _ _ _ _ _
  rw [exec_dp, hop]
  simp only [Bool.false_eq_true, if_false, State.dpWrite, if_true, State.underCond_of_passes _ hc,
    State.guarded_of_none _ hg]
  exact stopsAs_guarded hp (by simp [firstStop, ht, hres, h])

end

/-! ## U27, right after LDM(2) (R354) -/

section
variable (hz : s.userBankHazard = true)
include hz

theorem mrs_u27 (rd : RegNum) (hd : rd ≠ 15#4) (hb : s.bank.reg rd ≠ Bank.usr.reg rd) :
    s.StopsAs (exec (.mrs c false 15 rd 0 0) s) .u27 :=
  stopsAs_arm hp hc (by simp [firstStop, State.hazardCheck, State.isBanked, hz, hd, hb])

theorem swi_u27 (imm : BitVec 24) (hh : s.hook = none) : s.StopsAs (exec (.swi c imm) s) .u27 := by
  have hr : s.softwareInterrupt = s.guarded [s.entryHazardCheck]
      (.next (s.enterException .swi (s.instrAddr + s.opSize))) := by
    simp [State.softwareInterrupt, State.raise, hh]
  show s.StopsAs (s.underCond c s.softwareInterrupt) .u27
  rw [State.underCond_of_passes _ hc, hr]
  exact stopsAs_guarded hp (by simp [firstStop, State.entryHazardCheck, hz])

end

end

/-! ## THUMB instructions -/

section
variable {s : State} (hp : s.params.unpred = .fault)
include hp

/-- U11: a halfword at an odd address (R90). -/
theorem thumbHalf_u11 (ro rb rd : LowReg) (h : (s.readReg rb.toReg + s.readReg ro.toReg).getLsbD 0 = true) :
    s.StopsAs (exec (.tLdrhReg ro rb rd) s) .u11 ∧ s.StopsAs (exec (.tStrhReg ro rb rd) s) .u11 := by
  have ha : (s.regAddr rb ro).getLsbD 0 = true := h
  exact ⟨stopsAs_guarded hp (by simp only [firstStop, ha]; rfl),
    stopsAs_guarded hp (by simp only [List.cons_append, firstStop, ha]; rfl)⟩

/-- U20: a hi-register form of two low registers (R438). -/
theorem hiRegister_u20 (rs rd : LowReg) :
    s.StopsAs (exec (.tAddHi false false rs rd) s) .u20 ∧ s.StopsAs (exec (.tCmpHi false false rs rd) s) .u20 ∧
    s.StopsAs (exec (.tMovHi false false rs rd) s) .u20 :=
  ⟨stopsAs_guarded hp rfl, stopsAs_guarded hp rfl, stopsAs_guarded hp rfl⟩

end

/-- Settles O50: the two readings first, then one lemma for each U-case. The clauses that shut out the cases checked
after the named one are not needed: a case checked first names the fault (log 11). -/
theorem policyStops : Obligations.PolicyStops := by
  refine ⟨misaligned4_iff, State.hitsPrefetch_iff, fun c s hp hc => ⟨fun hz => ?_, fun hz => ?_⟩⟩
  · exact ⟨msrSpsr_u3 hp hc hz,
      fun op sf rn rd rs k _ _ hn ht => regShift_u4 hp hc op sf rn rd rs k hn ht,
      tst_u5 hp hc,
      multiply_u6 hp hc,
      fun u rn off _ => strb_u7 hp hc u rn off,
      fun u rn off h => ⟨ldr_u8 hp hc u rn off h, fun _ => str_u9 hp hc u rn off h⟩,
      fun ro rb rd h => (thumbHalf_u11 hp ro rb rd h).imp_right fun h _ => h,
      fun u rn rd off => ⟨fun h _ => str_u12 hp hc u rn rd off h, str_u26 hp hc hz u rn rd off⟩,
      fun m w rn rl hn h _ => (block_u13 hp hc m w rn rl hn h).imp (fun h _ => h) fun h _ _ => h,
      fun rn rd rm h15 hn h _ => swp_u13 hp hc rn rd rm h15 hn h,
      fun m w rn hn h => (block_u14 hp hc m w rn hn h).imp (fun h _ => h) fun h _ => h,
      fun m rn rl hn h hm _ => ldm_u15 hp hc m rn rl hn h hm,
      fun m rn rl rl' hn hs h h0 h0' => (userBank_u16 hp hc m rn rl rl' hn hs h h0 h0').imp_left fun h _ => h,
      bx_u19 hp hc hz,
      hiRegister_u20 hp,
      fun rn rd rm h15 hn => (swap_u23 hp hc rn rd rm h15 hn).imp (fun h _ => h) fun h _ => h,
      dpWrite_u25 hp hc hz⟩
  · exact ⟨mrs_u27 hp hc hz, swi_u27 hp hc hz⟩

end Sys2Proof.Machine

/-! # State: the invariant of every step, and the register banks (10_state.md, 70_reset_and_hazards.md) -/

namespace Sys2Proof.Machine

/-! ## The invariant after a fetch, a refill and a branch -/

/-- The invariant does not speak of registers, SPSRs, cycles, parameters, the fault record and the two counters. -/
theorem State.Inv.congr {s t : State} (h : s.Inv) (hm : t.mem = s.mem) (hc : t.cpsr = s.cpsr) (hpc : t.pc = s.pc)
    (hd : t.decoded = s.decoded) (hf : t.fetched = s.fetched) (hh : t.hook = s.hook) : t.Inv where
  memWf := hm ▸ h.memWf
  modeOk := by simpa [State.modeLegal, hc] using h.modeOk
  pcOk := by simpa [State.pcAligned, State.opWidth, hc, hpc] using h.pcOk
  decodedOk := by simpa only [State.latchFits, hc, hd] using h.decodedOk
  fetchedOk := by simpa only [State.latchFits, hc, hf] using h.fetchedOk
  noHook := hh.trans h.noHook

/-- A fetch fits the latches: in THUMB state it is a halfword (R47, R91). -/
theorem State.latchFits_fetchAt (s : State) (a : Word) : s.latchFits (s.fetchAt a) := fun ht => by
  have hw : s.opWidth = .half := by simp [State.opWidth, ht]
  rw [State.fetchAt, hw]
  exact s.portRead_lt .code _ .half

/-- An aligned address moved by the opcode size is aligned (R87). -/
theorem State.alignTo_add_opSize (s : State) {a : Word} (h : alignTo s.opWidth a = a) :
    alignTo s.opWidth (a + s.opSize) = a + s.opSize := by
  rw [State.opSize_bytes]
  simpa only [h] using alignTo_add s.opWidth a

section
variable {u : State} (hm : u.mem.wf = true) (hl : u.modeLegal) (hh : u.hook = none)
include hm hl hh

/-- The next fetch fills one latch and moves an aligned pc by one opcode (R191). -/
theorem State.inv_fetchNext (hpc : u.pcAligned) (hd : u.latchFits u.decoded) (q : Seq) : (u.fetchNext q).Inv :=
  ⟨hm, hl, u.alignTo_add_opSize hpc, hd, u.latchFits_fetchAt _, hh⟩

/-- A refill aligns the pc and fills both latches, whatever they held (R189). -/
theorem State.inv_refill (x : Word) : (u.refill x).Inv :=
  ⟨hm, hl, u.alignTo_add_opSize (u.alignTo_add_opSize (alignTo_alignTo _ x)), u.latchFits_fetchAt _,
    u.latchFits_fetchAt _, hh⟩

theorem State.inv_branchTo (x : Word) : (u.branchTo x).Inv :=
  (State.inv_refill hm hl hh x).congr rfl rfl rfl rfl rfl rfl

theorem State.inv_setPc (x : Word) : (u.setPc x).Inv :=
  (State.inv_refill (u := u.afterDraws 1) hm hl hh x).congr rfl rfl rfl rfl rfl rfl

end

/-! ## The invariant after an exception entry -/

theorem Mode.ofBits_bits (m : Mode) : Mode.ofBits m.bits = some m := by
  cases m <;> rfl

/-- An entry sets the mode of its kind (R521, R530). -/
theorem State.enterMode_mode (s : State) (k : ExceptionKind) (lr : Word) :
    (s.enterMode k lr).cpsr.mode = some k.mode := by
  simp [State.enterMode, Psr.mode, Mode.ofBits_bits]

theorem State.enterMode_mem (s : State) (k : ExceptionKind) (lr : Word) : (s.enterMode k lr).mem = s.mem := by
  by_cases hk : k = .reset <;> simp [State.enterMode, hk]

theorem State.enterMode_hook (s : State) (k : ExceptionKind) (lr : Word) : (s.enterMode k lr).hook = s.hook := by
  by_cases hk : k = .reset <;> simp [State.enterMode, hk]

theorem State.inv_enterException {u : State} (hm : u.mem.wf = true) (hh : u.hook = none) (k : ExceptionKind)
    (lr : Word) : (u.enterException k lr).Inv :=
  State.inv_branchTo (by rwa [State.enterMode_mem]) (by simp [State.modeLegal, State.enterMode_mode])
    (by rwa [State.enterMode_hook]) _

/-! ## The invariant over a step -/

theorem State.Inv.beginStep {s : State} (h : s.Inv) : s.beginStep.Inv :=
  ⟨h.memWf, h.modeOk, h.pcOk, h.fetchedOk, h.fetchedOk, h.noHook⟩

theorem State.Inv.endStep {s : State} (h : s.Inv) : s.endStep.Inv := h.congr rfl rfl rfl rfl rfl rfl

/-- Every end of an instruction keeps the invariant. A branch and an entry seed the pipeline anew; a fetch needs the
old pc and `decoded`, which without a hook are kept. -/
theorem State.Inv.ends {s t : State} (h : s.Inv) (e : s.Ends t) : t.Inv := by
  have before {u : State} (hu : s.Before u) : u.mem.wf = true ∧ u.modeLegal ∧ u.hook = none :=
    ⟨hu.memWf h.memWf, hu.legal h.noHook h.modeOk, hu.hook.trans h.noHook⟩
  cases e with
  | fetch u q b hu k =>
    obtain ⟨hm, hl, hh⟩ := before hu
    obtain ⟨hpc, hd, ht⟩ := k h.noHook
    have pcOk : u.pcAligned := by
      rw [State.pcAligned, State.opWidth_eq ht, hpc]
      exact h.pcOk
    have decodedOk : u.latchFits u.decoded := by
      rw [State.latchFits, ht, hd]
      exact h.decodedOk
    exact (State.inv_fetchNext hm hl hh pcOk decodedOk q).congr rfl rfl rfl rfl rfl rfl
  | branch u x hu =>
    obtain ⟨hm, hl, hh⟩ := before hu
    exact State.inv_branchTo hm hl hh x
  | enter u k lr hu =>
    obtain ⟨hm, -, hh⟩ := before hu
    exact State.inv_enterException hm hh k lr

/-- Settles O11: the instruction of the step ends in one of the three ways, each of which keeps the invariant. -/
theorem invKept : Obligations.InvKept := by
  intro s t h e
  obtain ⟨-, u, hu, rfl⟩ := step_next e
  exact (h.beginStep.ends (exec_ends _ _ u hu)).endStep

/-! ## The invariant at reset -/

/-- `reset_registers` enters Supervisor mode (R571). -/
theorem State.resetRegisters_modeLegal (s : State) : s.resetRegisters.modeLegal := rfl

theorem hardwareReset_inv {m : Mem} (h : m.wf = true) (p : Params) : (hardwareReset m p).Inv := by
  rw [hardwareReset]
  exact State.inv_setPc h (State.resetRegisters_modeLegal _) rfl _

/-- Settles O10: hardware reset seeds the pipeline by `set_pc`, and `State.reset` is a hardware reset. -/
theorem resetInv : Obligations.ResetInv := by
  obtain ⟨-, -, -, hreset⟩ := resetState
  exact ⟨hreset ▸ hardwareReset_inv rfl _, fun _ p h => hardwareReset_inv h p⟩

/-! ## Register banks (R34 to R36) -/

/-- Two banks show one physical register for a number: R0 to R7 always, R8 to R12 outside FIQ, R13 and R14 only in the
same bank (R34, R35). -/
def Bank.Shares (b b' : Bank) (r : RegNum) : Prop :=
  b = b' ∨ r.toNat < 8 ∨ r.toNat < 13 ∧ b ≠ .fiq ∧ b' ≠ .fiq

/-- Numbers of two banks name one physical register only where they are equal and the banks share it (R35). -/
theorem Bank.phys_eq_iff (b b' : Bank) : ∀ i j : Fin 15,
    b.phys i = b'.phys j ↔ i = j ∧ (b = b' ∨ i.val < 8 ∨ i.val < 13 ∧ b ≠ .fiq ∧ b' ≠ .fiq) := by
  cases b <;> cases b' <;> decide

theorem Bank.reg_of_lt (b : Bank) {r : RegNum} (h : r.toNat < 15) : b.reg r = some (b.phys ⟨r.toNat, h⟩) := by
  simp [Bank.reg, h]

theorem RegNum.toNat_lt_of_ne {r : RegNum} (h : r ≠ 15) : r.toNat < 15 := by
  bv_omega

/-- Another number or another bank names the same register exactly where number and register are shared (R35). -/
theorem Bank.reg_eq_iff (b b' : Bank) {r : RegNum} (r' : RegNum) (h : r ≠ 15) :
    b.reg r = b'.reg r' ↔ r' = r ∧ b.Shares b' r := by
  by_cases h' : r' = 15
  · obtain ⟨p, hp⟩ := Bank.reg_isSome b h
    rw [(Bank.reg_eq_none b' r').2 h', hp, h']
    exact iff_of_false (by simp) fun e => h e.1.symm
  · rw [Bank.reg_of_lt b (RegNum.toNat_lt_of_ne h), Bank.reg_of_lt b' (RegNum.toNat_lt_of_ne h'), Option.some.injEq,
      Bank.phys_eq_iff, Fin.mk.injEq, BitVec.toNat_inj, eq_comm (a := r)]
    rfl

/-- A number and a bank that share nothing with those of a write read what they did before (R35, R36). -/
theorem State.readBank_writeBank_apart (s : State) {b b' : Bank} {r r' : RegNum} (v : Word)
    (h : r' = r → ¬ b.Shares b' r) : (s.writeBank b r v).readBank b' r' = s.readBank b' r' := by
  by_cases hr : r = 15
  · simp [State.writeBank, (Bank.reg_eq_none b r).2 hr]
  · have hne : b.reg r ≠ b'.reg r' := fun e => by
      obtain ⟨he, hs⟩ := (Bank.reg_eq_iff b b' r' hr).1 e
      exact h he hs
    cases hp : b'.reg r' with
    | none => simp [State.readBank, hp]
    | some p =>
      rw [hp] at hne
      simp [State.readBank, hp, State.get_writeBank, hne]

/-- A shared register reads the same in both banks (R34). -/
theorem State.readBank_of_shares (s : State) {b b' : Bank} {r : RegNum} (hr : r ≠ 15) (h : b.Shares b' r) :
    s.readBank b r = s.readBank b' r := by
  rw [State.readBank, State.readBank, (Bank.reg_eq_iff b b' r hr).2 ⟨rfl, h⟩]

/-- Settles O16: the four clauses on writes and the two on reads are those of the registers two banks share. -/
theorem bankIsolation : Obligations.BankIsolation := by
  refine ⟨fun s b r r' v hr => ?_, fun s b b' r r' v hb hr => ?_, fun s b b' r hr => ?_,
    fun s b b' r hr hb hb' => ?_, fun s b r r' v hr hb => ?_, fun s b r r' v hr hr' hb => ?_⟩
  · simp only [State.readBank_writeBank, ne_eq, hr, not_false_eq_true, and_true]
  · refine s.readBank_writeBank_apart v fun _ => ?_
    rcases hr with rfl | rfl <;> simp [Bank.Shares, hb]
  · exact s.readBank_of_shares (by bv_omega) (.inr (.inl hr))
  · exact s.readBank_of_shares (by bv_omega) (.inr (.inr ⟨hr, hb, hb'⟩))
  · exact s.readBank_writeBank_apart v fun _ => by simp [Bank.Shares, hb.symm, hr]
  · exact s.readBank_writeBank_apart v fun _ => by simp [Bank.Shares, hb, hr]

end Sys2Proof.Machine

/-! # Memory: the canonical form, the order of bytes and the port (20_memory.md) -/

namespace Sys2Proof

/-- Some window has a property and covers an address when the address lies between its bounds (R85, log 6). -/
theorem PortWindow.any_covers (xs : List PortWindow) (a : Word) (f : PortWindow → Bool) :
    (xs.any fun x => x.covers a && f x) = true ↔ ∃ x ∈ xs, x.lo ≤ a.toNat ∧ a.toNat ≤ x.hi ∧ f x = true := by
  simp [PortWindow.covers, and_assoc]

end Sys2Proof

namespace Sys2Proof.Machine

/-! ## The canonical form over a step (R80) -/

/-- Every end of an instruction keeps the canonical form of memory, also where a hook has stored bytes. -/
theorem State.Ends.memWf {s t : State} (e : s.Ends t) (h : s.mem.wf = true) : t.mem.wf = true := by
  cases e with
  | fetch u q b hu k => exact hu.memWf h
  | branch u x hu => exact hu.memWf h
  | enter u k lr hu =>
    rw [State.enterException, State.branchTo_mem, State.enterMode_mem]
    exact hu.memWf h

/-- Settles O12: the start and the end of a step leave memory alone, and its instruction ends in one of the three
ways. -/
theorem memWfKept : Obligations.MemWfKept := by
  intro s t h e
  obtain ⟨-, u, hu, rfl⟩ := step_next e
  exact (exec_ends _ _ u hu).memWf (s := s.beginStep) h

/-! ## The bytes of a store and the port (R85, R86) -/

/-- Byte `k` of an access holds byte `k` of the value stored: the stores of the other bytes are at other addresses,
also across the top of the address space. -/
theorem Mem.byteAt_store_inside (m : Mem) (a v : Word) (w : Width) {k : Nat} (hk : k < w.bytes) :
    (m.store a v w).byteAt (a + BitVec.ofNat 32 k) = v.extractLsb' (8 * k) 8 := by
  cases w with
  | byte =>
    obtain rfl : k = 0 := Nat.lt_one_iff.1 hk
    simp [Mem.store, Mem.byteAt_setByte]
  | half =>
    have : k < 2 := hk
    interval_cases k <;> simp [Mem.store, Mem.byteAt_setByte]
  | word =>
    have : k < 4 := hk
    interval_cases k <;> simp [Mem.store, Mem.byteAt_setByte]

/-- Settles O17: the bytes inside and outside a store, the loads and the aligned address are those of memory, the
windows those of the parameters, and the port is memory outside its windows. -/
theorem byteOrder : Obligations.ByteOrder :=
  ⟨fun m a w _ => m.byteAt_store_inside a w .word,
    fun m a w _ => m.byteAt_store_inside a w .half,
    fun m a w => by simpa using m.byteAt_store_inside a w .byte Nat.zero_lt_one,
    fun m a w x wd => m.byteAt_store_outside a w wd x,
    fun _ _ => ⟨rfl, rfl⟩,
    Mem.load_lt,
    fun a wd => alignTo_toNat wd a,
    fun p a => ⟨PortWindow.any_covers p.windows a _, PortWindow.any_covers p.windows a _⟩,
    fun s k a wd => ⟨rfl, s.portRead_lt k a wd, rfl⟩,
    fun _ _ _ _ _ => State.wrote_portStore rfl⟩

end Sys2Proof.Machine

/-! # The encoding: both round trips (30_encoding.md R120 to R161)

An ARM word is its seven fields, and its format is settled by two of them, the row and the column of R140's table. So
each format has one lemma that decodes what the encoder wrote, and one that encodes what the decoder read. -/

namespace Sys2Proof

/-! ## Bits of a concatenation -/

theorem getLsbD_bit (b : Bool) : (bit b).getLsbD 0 = b := by cases b <;> rfl

theorem bit_getLsbD {n : Nat} (x : BitVec n) (k : Nat) : bit (x.getLsbD k) = x.extractLsb' k 1 := by
  apply BitVec.eq_of_getLsbD_eq
  intro j hj
  obtain rfl : j = 0 := by omega
  simp [bit]

/-- A bit that lies in the low part of a concatenation. -/
theorem getLsbD_append_low {n m : Nat} (x : BitVec n) (y : BitVec m) (s : Nat) (h : s < m) :
    (x ++ y).getLsbD s = y.getLsbD s := by
  rw [BitVec.getLsbD_append, if_pos h]

/-- A bit that lies in the high part of a concatenation. -/
theorem getLsbD_append_high {n m : Nat} (x : BitVec n) (y : BitVec m) (s : Nat) (h : m ≤ s) :
    (x ++ y).getLsbD s = x.getLsbD (s - m) := by
  rw [BitVec.getLsbD_append, if_neg h.not_gt]

/-- A field that lies across the seam of a concatenation. -/
theorem extract_append_straddle {n m : Nat} (x : BitVec n) (y : BitVec m) (s k l : Nat) (h : s + l = m) :
    (x ++ y).extractLsb' s (k + l) = x.extractLsb' 0 k ++ y.extractLsb' s l := by
  rw [← extract_join, extract_append_low x y s l h.le, extract_append_high x y (s + l) k h.ge, h, Nat.sub_self]

theorem append_eq_append_iff {n m : Nat} {x x' : BitVec n} {y y' : BitVec m} :
    x ++ y = x' ++ y' ↔ x = x' ∧ y = y' := by
  refine ⟨fun h => ?_, fun ⟨hx, hy⟩ => hx ▸ hy ▸ rfl⟩
  have hx := congrArg (BitVec.extractLsb' m n) h
  have hy := congrArg (BitVec.extractLsb' 0 m) h
  simp only [extract_append_high, extract_append_low, Nat.le_refl, Nat.zero_add, Nat.sub_self, extract_all] at hx hy
  exact ⟨hx, hy⟩

theorem toNat_append_eq_add {n m : Nat} (x : BitVec n) (y : BitVec m) :
    (x ++ y).toNat = x.toNat * 2 ^ m + y.toNat := by
  rw [BitVec.toNat_append, ← Nat.shiftLeft_add_eq_or_of_lt y.isLt, Nat.shiftLeft_eq]

theorem toNat_extract_eq_div {n : Nat} (x : BitVec n) (s k : Nat) :
    (x.extractLsb' s k).toNat = x.toNat / 2 ^ s % 2 ^ k := by
  rw [BitVec.extractLsb'_toNat, Nat.shiftRight_eq_div_pow]

/-! ## The row of an ARM word -/

/-- A row of the formats that keep five flags in op[24:20] (R133 to R135, R137). -/
def transferRow (k : BitVec 3) (p u b w l : Bool) : BitVec 8 := k ++ bit p ++ bit u ++ bit b ++ bit w ++ bit l

/-- A row of data processing: the operation and the S bit (R124). -/
def dpRow (k : BitVec 3) (op : DpOp) (sf : Bool) : BitVec 8 := k ++ op.bits ++ bit sf

section
variable (k : BitVec 3) (p u b w l : Bool) (op : DpOp) (sf : Bool)

theorem transferRow_space : (transferRow k p u b w l).extractLsb' 5 3 = k := by
  simp (disch := decide) only [transferRow, extract_append_high, Nat.reduceSub, extract_all]

theorem transferRow_flags :
    (transferRow k p u b w l).getLsbD 4 = p ∧ (transferRow k p u b w l).getLsbD 3 = u ∧
    (transferRow k p u b w l).getLsbD 2 = b ∧ (transferRow k p u b w l).getLsbD 1 = w ∧
    (transferRow k p u b w l).getLsbD 0 = l := by
  simp (disch := decide) only [transferRow, getLsbD_append_low, getLsbD_append_high, Nat.reduceSub, getLsbD_bit,
    and_self]

theorem dpRow_fields :
    (dpRow k op sf).extractLsb' 5 3 = k ∧ (dpRow k op sf).extractLsb' 1 4 = op.bits ∧
    (dpRow k op sf).getLsbD 0 = sf := by
  simp (disch := decide) only [dpRow, extract_append_low, extract_append_high, getLsbD_append_low, Nat.reduceSub,
    extract_all, getLsbD_bit, and_self]

end

/-- A row is the one its space and its five flags make. -/
theorem transferRow_getLsbD : ∀ row : BitVec 8,
    transferRow (row.extractLsb' 5 3) (row.getLsbD 4) (row.getLsbD 3) (row.getLsbD 2) (row.getLsbD 1)
      (row.getLsbD 0) = row := by decide

/-- A row is not one of the PSR-transfer space when its operation is no test or sets the flags (R140). -/
theorem isTestRow_dpRow {op : DpOp} {sf : Bool} (h : (!op.isTest || sf) = true) :
    isTestRow (dpRow 0 op sf) = false := by
  revert h
  cases op <;> cases sf <;> decide

/-- Nor one of the rows of MSR with an immediate and its undefined neighbours. -/
theorem dpRow_not_psrImm {op : DpOp} {sf : Bool} (h : (!op.isTest || sf) = true) :
    ¬(dpRow 1 op sf = 0x30 ∨ dpRow 1 op sf = 0x34) ∧ ¬(dpRow 1 op sf = 0x32 ∨ dpRow 1 op sf = 0x36) := by
  revert h
  cases op <;> cases sf <;> decide

/-! ## The column of a shifted register (R126, R127) -/

theorem shiftCol_fields : ∀ (a b : BitVec 1) (k : BitVec 2),
    (a ++ k ++ b).getLsbD 0 = b.getLsbD 0 ∧ (a ++ k ++ b).getLsbD 3 = a.getLsbD 0 ∧
    (a ++ k ++ b).extractLsb' 1 2 = k ∧ (a ++ k ++ b).extractLsb' 3 1 = a := by decide

/-! ## The dispatch table by op[27:25] (R140) -/

/-- Rows 0x00 to 0x1F, by the column. -/
def decodeLowRows (f : ArmFields) : Instr :=
  if f.col.getLsbD 0 = false then decodeImmShift f
  else if f.col.getLsbD 3 = false then decodeRegShift f
  else if f.col = 0x9 then decodeMultiply f
  else decodeHalfword f

/-- The table by the top three bits of the row. -/
def decodeBySpace (f : ArmFields) : Instr :=
  match (f.row.extractLsb' 5 3).toNat with
  | 0 => decodeLowRows f
  | 1 => decodeDpImm f
  | 2 => decodeSdtImm f
  | 3 => decodeSdtReg f
  | 4 => decodeBlock f
  | 5 => if f.row.getLsbD 4 = false then .b (Cond.ofBits f.cond) f.low24 else .bl (Cond.ofBits f.cond) f.low24
  | _ => decodeCoprocSwi f

/-- The bounds of R140's table are bounds on the top three bits, but for the one between B and BL. -/
theorem row_le_iff_space : ∀ row : BitVec 8,
    (row ≤ 0x1F ↔ (row.extractLsb' 5 3).toNat = 0) ∧ (row ≤ 0x3F ↔ (row.extractLsb' 5 3).toNat ≤ 1) ∧
    (row ≤ 0x5F ↔ (row.extractLsb' 5 3).toNat ≤ 2) ∧ (row ≤ 0x7F ↔ (row.extractLsb' 5 3).toNat ≤ 3) ∧
    (row ≤ 0x9F ↔ (row.extractLsb' 5 3).toNat ≤ 4) ∧ (row ≤ 0xBF ↔ (row.extractLsb' 5 3).toNat ≤ 5) ∧
    (row ≤ 0xAF ↔ (row.extractLsb' 5 3).toNat ≤ 4 ∨ (row.extractLsb' 5 3).toNat = 5 ∧ row.getLsbD 4 = false) := by
  decide

theorem decodeArmFields_eq_bySpace (f : ArmFields) : decodeArmFields f = decodeBySpace f := by
  obtain ⟨h1, h3, h5, h7, h9, hb, ha⟩ := row_le_iff_space f.row
  have hn := (f.row.extractLsb' 5 3).isLt
  simp only [decodeArmFields, decodeBySpace, decodeLowRows, h1, h3, h5, h7, h9, ha, hb]
  generalize (f.row.extractLsb' 5 3).toNat = n at hn
  interval_cases n <;> simp

/-- The decoder on an opcode built from fields, by the space of its row. -/
theorem decode_armWord_bySpace (c : Cond) (row : BitVec 8) (rn rd rs col rm : BitVec 4) :
    (armWord c row rn rd rs col rm).decode =
      decodeBySpace { cond := c.bits, row := row, rn := rn, rd := rd, rs := rs, col := col, rm := rm } := by
  rw [decode_armWord, decodeArmFields_eq_bySpace]

/-! ## Decoding what the encoder wrote: ARM -/

section
variable {op : DpOp} {c : Cond} {sf : Bool}

/-- The immediate form; a test operation is encoded with S = 1 (R125). -/
theorem decode_encodeDpImm {rn rd rot : BitVec 4} {imm : Byte} (h : (!op.isTest || sf) = true) :
    (encodeDpImm op c sf rn rd rot imm).decode = op.instrImm c sf rn rd rot imm := by
  have hrow : (0b001#3 ++ op.bits ++ bit sf : BitVec 8) = dpRow 1 op sf := rfl
  obtain ⟨hp, hq⟩ := dpRow_not_psrImm h
  simp only [encodeDpImm, hrow, decode_armWord_bySpace, decodeBySpace, decodeDpImm, dpRow_fields, BitVec.reduceToNat,
    if_neg hp, if_neg hq, ArmFields.imm8, join_imm8, Cond.ofBits_bits, DpOp.ofBits_bits]

/-- The immediate-shift form (R126). -/
theorem decode_encodeDpShift {rn rd rm : RegNum} {amt : BitVec 5} {k : ShiftKind} (h : (!op.isTest || sf) = true) :
    (encodeDpShift op c sf rn rd amt k rm).decode = op.instrShift c sf rn rd amt k rm := by
  have hrow : (0b000#3 ++ op.bits ++ bit sf : BitVec 8) = dpRow 0 op sf := rfl
  simp only [encodeDpShift, hrow, decode_armWord_bySpace, decodeBySpace, decodeLowRows, decodeImmShift, dpRow_fields,
    BitVec.reduceToNat, isTestRow_dpRow h, shiftCol_fields, ArmFields.shiftImm, ArmFields.shift, join_shiftImm,
    Cond.ofBits_bits, DpOp.ofBits_bits, ShiftKind.ofBits_bits, BitVec.reduceGetLsb, if_true, Bool.false_eq_true,
    if_false]

/-- The register-shift form (R127). -/
theorem decode_encodeDpRegShift {rn rd rs rm : RegNum} {k : ShiftKind} (h : (!op.isTest || sf) = true) :
    (encodeDpRegShift op c sf rn rd rs k rm).decode = op.instrRegShift c sf rn rd rs k rm := by
  have hrow : (0b000#3 ++ op.bits ++ bit sf : BitVec 8) = dpRow 0 op sf := rfl
  simp only [encodeDpRegShift, hrow, decode_armWord_bySpace, decodeBySpace, decodeLowRows, decodeRegShift, dpRow_fields,
    BitVec.reduceToNat, isTestRow_dpRow h, shiftCol_fields, ArmFields.shift, Cond.ofBits_bits, DpOp.ofBits_bits,
    ShiftKind.ofBits_bits, BitVec.reduceGetLsb, if_true, Bool.false_eq_true, if_false, Bool.true_eq_false]

end

section
variable {c : Cond} {p u b w l : Bool} {rn rd rm : BitVec 4}

/-- The single data transfer with an immediate offset (R133). -/
theorem decode_encodeSdtImm {off : BitVec 12} :
    (encodeSdtImm c p u b w l rn rd off).decode =
      decodeSdtImm ⟨c.bits, transferRow 0b010 p u b w l, rn, rd, off.extractLsb' 8 4,
        off.extractLsb' 4 4, off.extractLsb' 0 4⟩ := by
  have hrow : (0b010#3 ++ bit p ++ bit u ++ bit b ++ bit w ++ bit l : BitVec 8) = transferRow 0b010 p u b w l := rfl
  simp only [encodeSdtImm, hrow, decode_armWord_bySpace, decodeBySpace, transferRow_space, BitVec.reduceToNat]

/-- The single data transfer with a register offset (R133). -/
theorem decode_encodeSdtReg {amt : BitVec 5} {k : ShiftKind} :
    (encodeSdtReg c p u b w l rn rd amt k rm).decode =
      decodeSdtReg ⟨c.bits, transferRow 0b011 p u b w l, rn, rd, amt.extractLsb' 1 4,
        amt.extractLsb' 0 1 ++ k.bits ++ 0#1, rm⟩ := by
  have hrow : (0b011#3 ++ bit p ++ bit u ++ bit b ++ bit w ++ bit l : BitVec 8) = transferRow 0b011 p u b w l := rfl
  simp only [encodeSdtReg, hrow, decode_armWord_bySpace, decodeBySpace, transferRow_space, BitVec.reduceToNat]

/-- The halfword and signed transfer, whose op[6:5] is not that of multiply and swap (R134). -/
theorem decode_encodeHalfword {sh : BitVec 2} {hi lo : BitVec 4} (h : sh ≠ 0) :
    (encodeHalfword c p u b w l sh rn rd hi lo).decode =
      decodeHalfword ⟨c.bits, transferRow 0b000 p u b w l, rn, rd, hi,
        1#1 ++ sh ++ 1#1, lo⟩ := by
  have hrow : (0b000#3 ++ bit p ++ bit u ++ bit b ++ bit w ++ bit l : BitVec 8) = transferRow 0b000 p u b w l := rfl
  have hcol : ∀ sh : BitVec 2, sh ≠ 0 → (1#1 ++ sh ++ 1#1 : BitVec 4) ≠ 0x9 := by decide
  simp only [encodeHalfword, hrow, decode_armWord_bySpace, decodeBySpace, decodeLowRows, transferRow_space,
    BitVec.reduceToNat, shiftCol_fields, BitVec.reduceGetLsb, if_neg (hcol sh h), Bool.true_eq_false, if_false]

/-- The block data transfer (R135). -/
theorem decode_encodeBlock {m : BlockMode} {rl : BitVec 16} :
    (encodeBlock m c b w l rn rl).decode =
      decodeBlock ⟨c.bits, transferRow 0b100 m.p m.u b w l, rn, rl.extractLsb' 12 4,
        rl.extractLsb' 8 4, rl.extractLsb' 4 4, rl.extractLsb' 0 4⟩ := by
  have hrow : (0b100#3 ++ bit m.p ++ bit m.u ++ bit b ++ bit w ++ bit l : BitVec 8) =
      transferRow 0b100 m.p m.u b w l := rfl
  simp only [encodeBlock, hrow, decode_armWord_bySpace, decodeBySpace, transferRow_space, BitVec.reduceToNat]

/-- The coprocessor data transfer (R137). -/
theorem decode_encodeCoprocMem {cp : BitVec 4} {off : Byte} :
    (encodeCoprocMem c p u b w l rn rd cp off).decode =
      if l then .ldc c p u b w rn rd cp off else .stc c p u b w rn rd cp off := by
  have hrow : (0b110#3 ++ bit p ++ bit u ++ bit b ++ bit w ++ bit l : BitVec 8) = transferRow 0b110 p u b w l := rfl
  have hle : ∀ p u b w l, transferRow 0b110 p u b w l ≤ 0xDF := by decide
  simp only [encodeCoprocMem, hrow, decode_armWord_bySpace, decodeBySpace, decodeCoprocSwi, transferRow_space,
    transferRow_flags, BitVec.reduceToNat, if_pos (hle p u b w l), ArmFields.imm8, join_imm8, Cond.ofBits_bits]

end

theorem BlockMode.ofBits_p_u (m : BlockMode) : BlockMode.ofBits m.p m.u = m := by cases m <;> rfl

section
variable {m : BlockMode} {c : Cond} {w : Bool} {rn : RegNum}

theorem decode_encodeBlock_stm {rl : BitVec 16} :
    (encodeBlock m c false w false rn rl).decode = m.stm c w rn rl := by
  simp only [decode_encodeBlock, decodeBlock, transferRow_flags, BlockMode.ofBits_p_u, ArmFields.list16, join_list16,
    Cond.ofBits_bits]

theorem decode_encodeBlock_ldm {rl : BitVec 16} :
    (encodeBlock m c false w true rn rl).decode = m.ldm c w rn rl := by
  simp only [decode_encodeBlock, decodeBlock, transferRow_flags, BlockMode.ofBits_p_u, ArmFields.list16, join_list16,
    Cond.ofBits_bits]

theorem decode_encodeBlock_stmUser {rl : BitVec 16} :
    (encodeBlock m c true w false rn rl).decode = m.stmUser c w rn rl := by
  simp only [decode_encodeBlock, decodeBlock, transferRow_flags, BlockMode.ofBits_p_u, ArmFields.list16, join_list16,
    Cond.ofBits_bits]

/-- op[15] of the list is what tells the two forms of LDM with S = 1 (R354, R355). -/
theorem list15_fields (t : BitVec 1) (rl : BitVec 15) :
    ((t ++ rl : BitVec 16).extractLsb' 12 4).getLsbD 3 = t.getLsbD 0 ∧ (t ++ rl : BitVec 16).setWidth 15 = rl := by
  constructor
  · rw [BitVec.getLsbD_extractLsb', getLsbD_append_high t rl 15 (Nat.le_refl 15)]
    rfl
  · rw [BitVec.setWidth_append, dif_pos (Nat.le_refl 15), BitVec.setWidth_eq]

theorem decode_encodeBlock_ldmUser {rl : BitVec 15} :
    (encodeBlock m c true w true rn (0#1 ++ rl)).decode = m.ldmUser c w rn rl := by
  simp only [decode_encodeBlock, decodeBlock, transferRow_flags, BlockMode.ofBits_p_u, ArmFields.list15,
    ArmFields.list16, join_list16, list15_fields, Cond.ofBits_bits, BitVec.reduceGetLsb]

theorem decode_encodeBlock_ldmRet {rl : BitVec 15} :
    (encodeBlock m c true w true rn (1#1 ++ rl)).decode = m.ldmRet c w rn rl := by
  simp only [decode_encodeBlock, decodeBlock, transferRow_flags, BlockMode.ofBits_p_u, ArmFields.list15,
    ArmFields.list16, join_list16, list15_fields, Cond.ofBits_bits, BitVec.reduceGetLsb]

end

/-- A 24-bit field from its six nibbles (R136, R138). -/
theorem join_low24 (x : BitVec 24) :
    x.extractLsb' 20 4 ++ x.extractLsb' 16 4 ++ x.extractLsb' 12 4 ++ x.extractLsb' 8 4 ++ x.extractLsb' 4 4 ++
      x.extractLsb' 0 4 = x := by
  have h1 : x.extractLsb' 20 4 ++ x.extractLsb' 16 4 = x.extractLsb' 16 8 := extract_join x 16 4 4
  have h2 : x.extractLsb' 16 8 ++ x.extractLsb' 12 4 = x.extractLsb' 12 12 := extract_join x 12 8 4
  have h3 : x.extractLsb' 12 12 ++ x.extractLsb' 8 4 = x.extractLsb' 8 16 := extract_join x 8 12 4
  have h4 : x.extractLsb' 8 16 ++ x.extractLsb' 4 4 = x.extractLsb' 4 20 := extract_join x 4 16 4
  have h5 : x.extractLsb' 4 20 ++ x.extractLsb' 0 4 = x.extractLsb' 0 24 := extract_join x 0 20 4
  rw [h1, h2, h3, h4, h5, extract_all]

theorem row24_fields : ∀ t x : BitVec 4,
    (t ++ x : BitVec 8).extractLsb' 5 3 = t.extractLsb' 1 3 ∧ (t ++ x : BitVec 8).getLsbD 4 = t.getLsbD 0 ∧
    (t ++ x : BitVec 8).extractLsb' 0 4 = x := by decide

/-- The formats whose op[27:24] is fixed: B and BL (R136) and SWI (R138). -/
theorem decode_encode24_b {c : Cond} {x : BitVec 24} : (encode24 c 0b1010 x).decode = .b c x := by
  simp only [encode24, decode_armWord_bySpace, decodeBySpace, row24_fields, BitVec.reduceExtractLsb',
    BitVec.reduceToNat, BitVec.reduceGetLsb, ArmFields.low24, join_low24, Cond.ofBits_bits, if_true]

theorem decode_encode24_bl {c : Cond} {x : BitVec 24} : (encode24 c 0b1011 x).decode = .bl c x := by
  simp only [encode24, decode_armWord_bySpace, decodeBySpace, row24_fields, BitVec.reduceExtractLsb',
    BitVec.reduceToNat, BitVec.reduceGetLsb, ArmFields.low24, join_low24, Cond.ofBits_bits, Bool.true_eq_false,
    if_false]

theorem decode_encode24_swi {c : Cond} {x : BitVec 24} : (encode24 c 0b1111 x).decode = .swi c x := by
  have hrow : ∀ x : BitVec 4, ¬((0b1111 : BitVec 4) ++ x : BitVec 8) ≤ 0xDF ∧
      ¬((0b1111 : BitVec 4) ++ x : BitVec 8) ≤ 0xEF := by decide
  obtain ⟨h1, h2⟩ := hrow (x.extractLsb' 20 4)
  simp only [encode24, decode_armWord_bySpace, decodeBySpace, decodeCoprocSwi, row24_fields, BitVec.reduceExtractLsb',
    BitVec.reduceToNat, if_neg h1, if_neg h2, ArmFields.low24, join_low24, Cond.ofBits_bits]

/-! ## The undefined encodings (R139, R140)

Every mask of `Instr.encodable` looks at the row and the column alone. -/

/-- op[27:0] from its six fields. -/
theorem join_low28 (x : BitVec 28) :
    x.extractLsb' 20 8 ++ x.extractLsb' 16 4 ++ x.extractLsb' 12 4 ++ x.extractLsb' 8 4 ++ x.extractLsb' 4 4 ++
      x.extractLsb' 0 4 = x := by
  have h1 : x.extractLsb' 20 8 ++ x.extractLsb' 16 4 = x.extractLsb' 16 12 := extract_join x 16 8 4
  have h2 : x.extractLsb' 16 12 ++ x.extractLsb' 12 4 = x.extractLsb' 12 16 := extract_join x 12 12 4
  have h3 : x.extractLsb' 12 16 ++ x.extractLsb' 8 4 = x.extractLsb' 8 20 := extract_join x 8 16 4
  have h4 : x.extractLsb' 8 20 ++ x.extractLsb' 4 4 = x.extractLsb' 4 24 := extract_join x 4 20 4
  have h5 : x.extractLsb' 4 24 ++ x.extractLsb' 0 4 = x.extractLsb' 0 28 := extract_join x 0 24 4
  rw [h1, h2, h3, h4, h5, extract_all]

/-- A pattern on op[27:20] and op[7:4]. -/
def rowColPattern (row : BitVec 8) (col : BitVec 4) : BitVec 28 := row ++ 0#4 ++ 0#4 ++ 0#4 ++ col ++ 0#4

theorem and_append_eq_iff {n k : Nat} {x m p : BitVec n} {y m' p' : BitVec k} :
    (x ++ y) &&& (m ++ m') = p ++ p' ↔ x &&& m = p ∧ y &&& m' = p' := by
  rw [BitVec.and_append, append_eq_append_iff]

/-- A body lies in its row when its row and its column match the pattern. -/
theorem inRow_iff (x : BitVec 28) (rowMask row : BitVec 8) (colMask col : BitVec 4) :
    inRow x (rowColPattern rowMask colMask) (rowColPattern row col) = true ↔
      x.extractLsb' 20 8 &&& rowMask = row ∧ x.extractLsb' 4 4 &&& colMask = col := by
  rw [inRow, beq_iff_eq, rowColPattern, rowColPattern]
  conv => lhs; lhs; lhs; rw [← join_low28 x]
  rw [and_append_eq_iff, and_append_eq_iff, and_append_eq_iff, and_append_eq_iff, and_append_eq_iff]
  simp only [BitVec.and_zero, and_true]

/-- The fields of an undefined encoding. -/
def undefFields (c : Cond) (x : BitVec 28) : ArmFields :=
  ⟨c.bits, x.extractLsb' 20 8, x.extractLsb' 16 4, x.extractLsb' 12 4, x.extractLsb' 8 4, x.extractLsb' 4 4,
    x.extractLsb' 0 4⟩

theorem undefFields_low28 (c : Cond) (x : BitVec 28) : (undefFields c x).low28 = x := join_low28 x

theorem decode_encode28 (c : Cond) (x : BitVec 28) : (encode28 c x).decode = decodeBySpace (undefFields c x) :=
  decode_armWord_bySpace ..

/-- The cells of rows 0x00 to 0x1F that the table leaves undefined (R140): in the column of multiply and swap, and in
the rows of PSR transfer. -/
def undefinedCell (row : BitVec 8) (col : BitVec 4) : Bool :=
  if col = 0x9 then 0x04 ≤ row && row ≤ 0x1F && !(0x08 ≤ row && row ≤ 0x0F) && row != 0x10 && row != 0x14
  else isTestRow row && col != 0x0 && !(col.getLsbD 0 && col.getLsbD 3) && !(row == 0x12 && col == 0x1)

/-- In the column of multiply and swap these are the cells that `decodeMultiply` gives to no instruction. -/
theorem undefinedCell_multiply : ∀ row : BitVec 8, undefinedCell row 0x9 = true ↔
    row.extractLsb' 5 3 = 0#3 ∧ ¬row ≤ 0x03 ∧ ¬(0x08 ≤ row ∧ row ≤ 0x0F) ∧ row ≠ 0x10 ∧ row ≠ 0x14 := by decide

theorem space_of_isTestRow : ∀ row : BitVec 8, isTestRow row = true → row.extractLsb' 5 3 = 0#3 := by decide

/-- In the other columns they are the cells of the rows of PSR transfer without MRS, MSR, BX and the transfers. -/
theorem undefinedCell_psr {row : BitVec 8} {col : BitVec 4} (hc : col ≠ 0x9) : undefinedCell row col = true ↔
    isTestRow row = true ∧ col ≠ 0x0 ∧ (col.getLsbD 0 = true → col.getLsbD 3 = false) ∧ (row = 0x12 → col ≠ 0x1) := by
  simp only [undefinedCell, if_neg hc, Bool.and_eq_true, Bool.not_eq_true', bne_iff_ne, Bool.and_eq_false_imp,
    beq_eq_false_iff_ne, beq_iff_eq, and_assoc]

theorem psrRow_pattern : ∀ row : BitVec 8, isTestRow row = true → row &&& 0xF9 = 0x10 := by decide

/-- An undefined cell is decoded by `undefLow`, whichever part of the table it lies in. -/
theorem decodeBySpace_undefinedCell {f : ArmFields} (h : undefinedCell f.row f.col = true) :
    decodeBySpace f = undefLow (Cond.ofBits f.cond) f.row f.col f.low28 := by
  by_cases hc : f.col = 0x9
  · obtain ⟨h0, h1, h2, h3, h4⟩ := (undefinedCell_multiply f.row).1 (hc ▸ h)
    simp only [decodeBySpace, h0, decodeLowRows, hc, decodeMultiply, if_neg h1, if_neg h2, if_neg h3, if_neg h4,
      BitVec.reduceToNat, BitVec.reduceGetLsb, Bool.true_eq_false, if_false, if_true]
  · obtain ⟨hr, hc0, hc3, hbx⟩ := (undefinedCell_psr hc).1 h
    simp only [decodeBySpace, space_of_isTestRow _ hr, BitVec.reduceToNat, decodeLowRows]
    cases hb : f.col.getLsbD 0 with
    | false => simp only [decodeImmShift, hr, if_neg hc0, if_true]
    | true =>
      simp only [decodeRegShift, hr, hc3 hb, not_and.2 hbx, Bool.true_eq_false, if_true, if_false]

/-- A cell is undefined and `undefLow` gives the undefined instruction of one row of spec/opcode_table.json there. -/
def UndefCellIs (row : BitVec 8) (col : BitVec 4) (i : Cond → BitVec 28 → Instr) : Prop :=
  undefinedCell row col = true ∧ (fun c => undefLow c row col) = i

theorem rows_psr : ∀ row : BitVec 8, row &&& 0xF9 = 0x10 → row = 0x10 ∨ row = 0x12 ∨ row = 0x14 ∨ row = 0x16 := by
  decide

theorem col_multiply : ∀ col : BitVec 4, col &&& 0xF = 0x9 → col = 0x9 := by decide

theorem col_branchExchange : ∀ col : BitVec 4, col &&& 0xF = 0x1 → col = 0x1 := by decide

section
variable {row : BitVec 8} {col : BitVec 4}

theorem undefCellIs_undMul (hr : row &&& 0xFC = 0x04) (hc : col &&& 0xF = 0x9) : UndefCellIs row col .undMul := by
  have hrow : ∀ row : BitVec 8, row &&& 0xFC = 0x04 → row = 0x04 ∨ row = 0x05 ∨ row = 0x06 ∨ row = 0x07 := by decide
  obtain rfl := col_multiply _ hc
  rcases hrow _ hr with rfl | rfl | rfl | rfl <;> exact ⟨rfl, rfl⟩

theorem undefCellIs_undSwapOdd (hr : row &&& 0xF1 = 0x11) (hc : col &&& 0xF = 0x9) :
    UndefCellIs row col .undSwapOdd := by
  have hrow : ∀ row : BitVec 8, row &&& 0xF1 = 0x11 →
      row = 0x11 ∨ row = 0x13 ∨ row = 0x15 ∨ row = 0x17 ∨ row = 0x19 ∨ row = 0x1B ∨ row = 0x1D ∨ row = 0x1F := by
    decide
  obtain rfl := col_multiply _ hc
  rcases hrow _ hr with rfl | rfl | rfl | rfl | rfl | rfl | rfl | rfl <;> exact ⟨rfl, rfl⟩

theorem undefCellIs_undSwapW (hr : row &&& 0xF3 = 0x12) (hc : col &&& 0xF = 0x9) : UndefCellIs row col .undSwapW := by
  have hrow : ∀ row : BitVec 8, row &&& 0xF3 = 0x12 → row = 0x12 ∨ row = 0x16 ∨ row = 0x1A ∨ row = 0x1E := by decide
  obtain rfl := col_multiply _ hc
  rcases hrow _ hr with rfl | rfl | rfl | rfl <;> exact ⟨rfl, rfl⟩

theorem undefCellIs_undSwapHigh (hr : row &&& 0xFB = 0x18) (hc : col &&& 0xF = 0x9) :
    UndefCellIs row col .undSwapHigh := by
  have hrow : ∀ row : BitVec 8, row &&& 0xFB = 0x18 → row = 0x18 ∨ row = 0x1C := by decide
  obtain rfl := col_multiply _ hc
  rcases hrow _ hr with rfl | rfl <;> exact ⟨rfl, rfl⟩

theorem undefCellIs_undMisc1 (hr : row &&& 0xFB = 0x10) (hc : col &&& 0xF = 0x1) : UndefCellIs row col .undMisc1 := by
  have hrow : ∀ row : BitVec 8, row &&& 0xFB = 0x10 → row = 0x10 ∨ row = 0x14 := by decide
  obtain rfl := col_branchExchange _ hc
  rcases hrow _ hr with rfl | rfl <;> exact ⟨rfl, rfl⟩

theorem undefCellIs_undMisc1Row16 (hr : row &&& 0xFF = 0x16) (hc : col &&& 0xF = 0x1) :
    UndefCellIs row col .undMisc1Row16 := by
  have hrow : ∀ row : BitVec 8, row &&& 0xFF = 0x16 → row = 0x16 := by decide
  obtain rfl := col_branchExchange _ hc
  obtain rfl := hrow _ hr
  exact ⟨rfl, rfl⟩

theorem undefCellIs_undMisc23 (hr : row &&& 0xF9 = 0x10) (hc : col &&& 0xA = 0x2) :
    UndefCellIs row col .undMisc23 := by
  have hcol : ∀ col : BitVec 4, col &&& 0xA = 0x2 → col = 0x2 ∨ col = 0x3 ∨ col = 0x6 ∨ col = 0x7 := by decide
  rcases rows_psr _ hr with rfl | rfl | rfl | rfl <;> rcases hcol _ hc with rfl | rfl | rfl | rfl <;> exact ⟨rfl, rfl⟩

theorem undefCellIs_undMisc45 (hr : row &&& 0xF9 = 0x10) (hc : col &&& 0xE = 0x4) :
    UndefCellIs row col .undMisc45 := by
  have hcol : ∀ col : BitVec 4, col &&& 0xE = 0x4 → col = 0x4 ∨ col = 0x5 := by decide
  rcases rows_psr _ hr with rfl | rfl | rfl | rfl <;> rcases hcol _ hc with rfl | rfl <;> exact ⟨rfl, rfl⟩

theorem undefCellIs_undMiscHigh (hr : row &&& 0xF9 = 0x10) (hc : col &&& 0x9 = 0x8) :
    UndefCellIs row col .undMiscHigh := by
  have hcol : ∀ col : BitVec 4, col &&& 0x9 = 0x8 → col = 0x8 ∨ col = 0xA ∨ col = 0xC ∨ col = 0xE := by decide
  rcases rows_psr _ hr with rfl | rfl | rfl | rfl <;> rcases hcol _ hc with rfl | rfl | rfl | rfl <;> exact ⟨rfl, rfl⟩

end

/-- An undefined encoding whose body lies in a row of the table that `undefLow` names decodes to that row. -/
theorem decode_encode28_of_undefCellIs {c : Cond} {x : BitVec 28} {i : Cond → BitVec 28 → Instr}
    (rowMask row : BitVec 8) (colMask col : BitVec 4)
    (h : inRow x (rowColPattern rowMask colMask) (rowColPattern row col) = true)
    (hi : ∀ {r k}, r &&& rowMask = row → k &&& colMask = col → UndefCellIs r k i) :
    (encode28 c x).decode = i c x := by
  obtain ⟨hr, hc⟩ := (inRow_iff ..).1 h
  obtain ⟨hcell, rfl⟩ := hi hr hc
  rw [decode_encode28, decodeBySpace_undefinedCell hcell, undefFields_low28]
  simp only [undefFields, Cond.ofBits_bits]

/-- MSR with an immediate and bit 21 clear. -/
theorem decode_encode28_undPsrImm {c : Cond} {x : BitVec 28} (h : inRow x 0xFB00000 0x3000000 = true) :
    (encode28 c x).decode = .undPsrImm c x := by
  obtain ⟨hr, -⟩ := (inRow_iff x 0xFB 0x30 0 0).1 h
  have hrow : ∀ row : BitVec 8, row &&& 0xFB = 0x30 → row.extractLsb' 5 3 = 1 ∧ (row = 0x30 ∨ row = 0x34) := by decide
  obtain ⟨hs, h0⟩ := hrow _ hr
  rw [decode_encode28]
  simp only [decodeBySpace, undefFields, hs, BitVec.reduceToNat, decodeDpImm, if_pos h0, Cond.ofBits_bits,
    ArmFields.low28, join_low28]

/-- op[27:25] = 011 with op[4] = 1 (R139). -/
theorem decode_encode28_undMedia {c : Cond} {x : BitVec 28} (h : inRow x 0xE000010 0x6000010 = true) :
    (encode28 c x).decode = .undMedia c x := by
  obtain ⟨hr, hc⟩ := (inRow_iff x 0xE0 0x60 1 1).1 h
  have hrow : ∀ row : BitVec 8, row &&& 0xE0 = 0x60 → row.extractLsb' 5 3 = 3 := by decide
  have hcol : ∀ col : BitVec 4, col &&& 0x1 = 0x1 → col.getLsbD 0 = true := by decide
  rw [decode_encode28]
  simp only [decodeBySpace, undefFields, hrow _ hr, BitVec.reduceToNat, decodeSdtReg, if_pos (hcol _ hc),
    Cond.ofBits_bits, ArmFields.low28, join_low28]

/-! ## The remaining ARM rows and the straddling THUMB field -/

/-- The rows of CDP, MCR and MRC (R137). -/
theorem coprocRow_fields : ∀ x : BitVec 4,
    (0b1110#4 ++ x : BitVec 8).extractLsb' 5 3 = 7 ∧ ¬(0b1110#4 ++ x : BitVec 8) ≤ 0xDF ∧
    (0b1110#4 ++ x : BitVec 8) ≤ 0xEF ∧ (0b1110#4 ++ x : BitVec 8).extractLsb' 0 4 = x := by decide

theorem coprocRegRow_fields : ∀ (x : BitVec 3) (l : BitVec 1),
    (0b1110#4 ++ x ++ l : BitVec 8).extractLsb' 5 3 = 7 ∧ ¬(0b1110#4 ++ x ++ l : BitVec 8) ≤ 0xDF ∧
    (0b1110#4 ++ x ++ l : BitVec 8) ≤ 0xEF ∧ (0b1110#4 ++ x ++ l : BitVec 8).extractLsb' 1 3 = x ∧
    (0b1110#4 ++ x ++ l : BitVec 8).getLsbD 0 = l.getLsbD 0 := by decide

theorem coprocCol_fields : ∀ (x : BitVec 3) (b : BitVec 1),
    (x ++ b : BitVec 4).getLsbD 0 = b.getLsbD 0 ∧ (x ++ b : BitVec 4).extractLsb' 1 3 = x := by decide

/-- op[11:8] of a halfword whose fixed part ends at op[9], as in three undefined rows of the 1011 space (R160). -/
theorem thumbIndex_of_seven (x : BitVec 7) (y : BitVec 9) :
    (x ++ y : Half).extractLsb' 8 4 = x.extractLsb' 0 3 ++ y.extractLsb' 8 1 :=
  extract_append_straddle x y 8 3 1 rfl

/-- The same where the fixed part ends at op[10], as in the fourth. -/
theorem thumbIndex_of_six (x : BitVec 6) (y : BitVec 10) :
    (x ++ y : Half).extractLsb' 8 4 = x.extractLsb' 0 2 ++ y.extractLsb' 8 2 :=
  extract_append_straddle x y 8 2 2 rfl

/-! ## Decoding what the encoder wrote: every instruction -/

theorem Instr.decode_encode {i : Instr} (h : i.encodable = true) : i.encode.decode = i := by
  cases i
  case andImm | eorImm | subImm | rsbImm | addImm | adcImm | sbcImm | rscImm | tstImm | teqImm | cmpImm | cmnImm |
      orrImm | movImm | bicImm | mvnImm =>
    exact decode_encodeDpImm rfl
  case andShift | eorShift | subShift | rsbShift | addShift | adcShift | sbcShift | rscShift | tstShift | teqShift |
      cmpShift | cmnShift | orrShift | movShift | bicShift | mvnShift =>
    exact decode_encodeDpShift rfl
  case andRegShift | eorRegShift | subRegShift | rsbRegShift | addRegShift | adcRegShift | sbcRegShift | rscRegShift |
      tstRegShift | teqRegShift | cmpRegShift | cmnRegShift | orrRegShift | movRegShift | bicRegShift | mvnRegShift =>
    exact decode_encodeDpRegShift rfl
  case strImmPre | strImmPost | strbImmPre | strbImmPost | ldrImmPre | ldrImmPost | ldrbImmPre | ldrbImmPost |
      strtImm | strbtImm | ldrtImm | ldrbtImm =>
    refine decode_encodeSdtImm.trans ?_
    simp only [decodeSdtImm, transferRow_flags, ArmFields.offset12, join_offset12, Cond.ofBits_bits]
  case strRegPre | strRegPost | strbRegPre | strbRegPost | ldrRegPre | ldrRegPost | ldrbRegPre | ldrbRegPost |
      strtReg | strbtReg | ldrtReg | ldrbtReg =>
    refine decode_encodeSdtReg.trans ?_
    simp only [decodeSdtReg, transferRow_flags, shiftCol_fields, ArmFields.shiftImm, ArmFields.shift, join_shiftImm,
      BitVec.reduceGetLsb, Bool.false_eq_true, if_false, Cond.ofBits_bits, ShiftKind.ofBits_bits]
  case strhReg | strhImm | ldrhReg | ldrhImm | ldrsbReg | ldrsbImm | ldrshReg | ldrshImm | reservedLsh10Reg |
      reservedLsh10Imm | reservedLsh11Reg | reservedLsh11Imm =>
    refine (decode_encodeHalfword (by decide)).trans ?_
    simp only [decodeHalfword, transferRow_flags, Cond.ofBits_bits]
    rfl
  case stmda | stmia | stmdb | stmib => exact decode_encodeBlock_stm
  case ldmda | ldmia | ldmdb | ldmib => exact decode_encodeBlock_ldm
  case stmdaUser | stmiaUser | stmdbUser | stmibUser => exact decode_encodeBlock_stmUser
  case ldmdaUser | ldmiaUser | ldmdbUser | ldmibUser => exact decode_encodeBlock_ldmUser
  case ldmdaRet | ldmiaRet | ldmdbRet | ldmibRet => exact decode_encodeBlock_ldmRet
  case b => exact decode_encode24_b
  case bl => exact decode_encode24_bl
  case swi => exact decode_encode24_swi
  case ldc | stc => exact decode_encodeCoprocMem
  case mrs c r _ _ _ _ | msrReg c r _ _ _ _ =>
    refine (decode_armWord_bySpace ..).trans ?_
    cases r <;> simp [decodeBySpace, decodeLowRows, decodeImmShift, isTestRow, bit]
  case msrImm c r _ _ _ _ =>
    refine (decode_armWord_bySpace ..).trans ?_
    cases r <;> simp [decodeBySpace, decodeDpImm, bit, ArmFields.imm8, join_imm8]
  case mul c sf _ _ _ _ | mla c sf _ _ _ _ | umull c sf _ _ _ _ | umlal c sf _ _ _ _ | smull c sf _ _ _ _ |
      smlal c sf _ _ _ _ =>
    refine (decode_armWord_bySpace ..).trans ?_
    cases sf <;> simp [decodeBySpace, decodeLowRows, decodeMultiply, bit]
  case swp | swpb =>
    refine (decode_armWord_bySpace ..).trans ?_
    simp [decodeBySpace, decodeLowRows, decodeMultiply]
  case bx =>
    refine (decode_armWord_bySpace ..).trans ?_
    simp [decodeBySpace, decodeLowRows, decodeRegShift, join_offset12, isTestRow]
  case cdp | mcr | mrc =>
    refine (decode_armWord_bySpace ..).trans ?_
    simp only [decodeBySpace, decodeCoprocSwi, coprocRow_fields, coprocRegRow_fields, coprocCol_fields,
      BitVec.reduceToNat, BitVec.reduceGetLsb, Bool.false_eq_true, if_false, if_true, Cond.ofBits_bits]
  case undMul => exact decode_encode28_of_undefCellIs 0xFC 0x04 0xF 0x9 h undefCellIs_undMul
  case undMisc1 => exact decode_encode28_of_undefCellIs 0xFB 0x10 0xF 0x1 h undefCellIs_undMisc1
  case undMisc23 => exact decode_encode28_of_undefCellIs 0xF9 0x10 0xA 0x2 h undefCellIs_undMisc23
  case undMisc45 => exact decode_encode28_of_undefCellIs 0xF9 0x10 0xE 0x4 h undefCellIs_undMisc45
  case undMiscHigh => exact decode_encode28_of_undefCellIs 0xF9 0x10 0x9 0x8 h undefCellIs_undMiscHigh
  case undSwapOdd => exact decode_encode28_of_undefCellIs 0xF1 0x11 0xF 0x9 h undefCellIs_undSwapOdd
  case undSwapW => exact decode_encode28_of_undefCellIs 0xF3 0x12 0xF 0x9 h undefCellIs_undSwapW
  case undMisc1Row16 => exact decode_encode28_of_undefCellIs 0xFF 0x16 0xF 0x1 h undefCellIs_undMisc1Row16
  case undSwapHigh => exact decode_encode28_of_undefCellIs 0xFB 0x18 0xF 0x9 h undefCellIs_undSwapHigh
  case undPsrImm => exact decode_encode28_undPsrImm h
  case undMedia => exact decode_encode28_undMedia h
  case tPush r _ | tPop r _ =>
    change decodeThumb _ = _
    cases r <;>
      simp (disch := decide) only [decodeThumb, decodeThumbMisc, extract_append_high, extract_append_low, extract_all,
        bit, BitVec.ofBool_true, BitVec.ofBool_false, BitVec.reduceAppend, BitVec.reduceExtractLsb',
        BitVec.reduceToNat, Nat.reduceSub]
  case tUndB2 x | tUndB6 x | tUndBe x =>
    change decodeThumb _ = _
    have hbit : ∀ b : BitVec 1, b = 0#1 ∨ b = 1#1 := by decide
    rcases hbit (x.extractLsb' 8 1) with hx | hx <;>
      simp (disch := decide) only [decodeThumb, decodeThumbMisc, thumbIndex_of_seven, hx, extract_append_high,
        extract_append_low, extract_all, BitVec.reduceAppend, BitVec.reduceExtractLsb', BitVec.reduceToNat,
        Nat.reduceSub]
  case tUndB8 x =>
    change decodeThumb _ = _
    have hbits : ∀ b : BitVec 2, b = 0#2 ∨ b = 1#2 ∨ b = 2#2 ∨ b = 3#2 := by decide
    rcases hbits (x.extractLsb' 8 2) with hx | hx | hx | hx <;>
      simp (disch := decide) only [decodeThumb, decodeThumbMisc, thumbIndex_of_six, hx, extract_append_high,
        extract_append_low, extract_all, BitVec.reduceAppend, BitVec.reduceExtractLsb', BitVec.reduceToNat,
        Nat.reduceSub]
  -- The other THUMB formats: every match of the decoder is on a fixed field, which the concatenation gives.
  all_goals
    change decodeThumb _ = _
    simp (disch := decide) only [decodeThumb, decodeThumbHi, decodeThumbAlu, decodeThumbReg, decodeThumbMisc,
      decodeThumbCond, extract_append_high, extract_append_low, extract_all, getLsbD_append_low, getLsbD_append_high,
      getLsbD_bit, Nat.reduceSub, BitVec.reduceExtractLsb', BitVec.reduceToNat, BitVec.reduceGetLsb,
      Bool.false_eq_true, if_true, if_false]

/-! ## Encoding what the decoder read: ARM -/

/-- The instruction is encodable and the opcode is its encoding. -/
def Instr.EncodesTo (i : Instr) (o : Opcode) : Prop := i.encode = o ∧ i.encodable = true

section
variable {f : ArmFields}

theorem ArmFields.armWord_ofBits : armWord (Cond.ofBits f.cond) f.row f.rn f.rd f.rs f.col f.rm = .arm f.toWord := by
  rw [armWord, Cond.bits_ofBits]

theorem ArmFields.shiftImm_parts :
    f.shiftImm.extractLsb' 1 4 = f.rs ∧ f.shiftImm.extractLsb' 0 1 = f.col.extractLsb' 3 1 := by
  simp (disch := decide) only [ArmFields.shiftImm, extract_append_high, extract_append_low, extract_all,
    Nat.reduceSub, and_self]

theorem ArmFields.imm8_parts : f.imm8.extractLsb' 4 4 = f.col ∧ f.imm8.extractLsb' 0 4 = f.rm := by
  simp (disch := decide) only [ArmFields.imm8, extract_append_high, extract_append_low, extract_all,
    Nat.reduceSub, and_self]

theorem ArmFields.offset12_parts : f.offset12.extractLsb' 8 4 = f.rs ∧ f.offset12.extractLsb' 4 4 = f.col ∧
    f.offset12.extractLsb' 0 4 = f.rm := by
  simp (disch := decide) only [ArmFields.offset12, extract_append_high, extract_append_low, extract_all,
    Nat.reduceSub, and_self]

theorem ArmFields.list16_parts : f.list16.extractLsb' 12 4 = f.rd ∧ f.list16.extractLsb' 8 4 = f.rs ∧
    f.list16.extractLsb' 4 4 = f.col ∧ f.list16.extractLsb' 0 4 = f.rm := by
  simp (disch := decide) only [ArmFields.list16, extract_append_high, extract_append_low, extract_all,
    Nat.reduceSub, and_self]

theorem ArmFields.low24_parts : f.low24.extractLsb' 20 4 = f.row.extractLsb' 0 4 ∧ f.low24.extractLsb' 16 4 = f.rn ∧
    f.low24.extractLsb' 12 4 = f.rd ∧ f.low24.extractLsb' 8 4 = f.rs ∧
    f.low24.extractLsb' 4 4 = f.col ∧ f.low24.extractLsb' 0 4 = f.rm := by
  simp (disch := decide) only [ArmFields.low24, extract_append_high, extract_append_low, extract_all,
    Nat.reduceSub, and_self]

theorem ArmFields.low28_parts : f.low28.extractLsb' 20 8 = f.row ∧ f.low28.extractLsb' 16 4 = f.rn ∧
    f.low28.extractLsb' 12 4 = f.rd ∧ f.low28.extractLsb' 8 4 = f.rs ∧
    f.low28.extractLsb' 4 4 = f.col ∧ f.low28.extractLsb' 0 4 = f.rm := by
  simp (disch := decide) only [ArmFields.low28, extract_append_high, extract_append_low, extract_all,
    Nat.reduceSub, and_self]

/-- op[15] and the list below it are the list (R354, R355). -/
theorem ArmFields.bit_append_list15 : (bit (f.rd.getLsbD 3) ++ f.list15 : BitVec 16) = f.list16 := by
  have hbit : f.rd.getLsbD 3 = f.list16.getLsbD 15 := by
    simp (disch := decide) only [ArmFields.list16, getLsbD_append_high, Nat.reduceSub]
  rw [hbit, bit_getLsbD, ArmFields.list15, BitVec.setWidth_eq_extractLsb' (by decide)]
  exact (extract_join f.list16 0 1 15).trans (extract_all _)

section
variable {c : Cond} {op : DpOp} {sf p u b w l : Bool} {rn rd rot : BitVec 4} {k : ShiftKind} {rm : RegNum}

/-! Each format, of the fields that one word has. -/

theorem encodeDpImm_imm8 :
    encodeDpImm op c sf rn rd rot f.imm8 = armWord c (dpRow 1#3 op sf) rn rd rot f.col f.rm := by
  simp only [encodeDpImm, dpRow, f.imm8_parts]

theorem encode_msrImm_imm8 {r : Bool} : (Instr.msrImm c r rn rd rot f.imm8).encode =
    armWord c (0b00110#5 ++ bit r ++ 0b10#2) rn rd rot f.col f.rm := by
  change armWord c _ rn rd rot (f.imm8.extractLsb' 4 4) (f.imm8.extractLsb' 0 4) = _
  simp only [f.imm8_parts]

theorem encode_bx_fields : (Instr.bx c (f.rn ++ f.rd ++ f.rs) rm).encode = armWord c 0x12 f.rn f.rd f.rs 0x1 rm := by
  change armWord c 0x12 ((f.rn ++ f.rd ++ f.rs).extractLsb' 8 4) ((f.rn ++ f.rd ++ f.rs).extractLsb' 4 4)
    ((f.rn ++ f.rd ++ f.rs).extractLsb' 0 4) 0x1 rm = _
  simp (disch := decide) only [extract_append_high, extract_append_low, extract_all, Nat.reduceSub]

theorem encodeDpShift_shiftImm : encodeDpShift op c sf rn rd f.shiftImm k rm =
    armWord c (dpRow 0#3 op sf) rn rd f.rs (f.col.extractLsb' 3 1 ++ k.bits ++ 0#1) rm := by
  simp only [encodeDpShift, dpRow, f.shiftImm_parts]

theorem encodeSdtImm_offset12 :
    encodeSdtImm c p u b w l rn rd f.offset12 = armWord c (transferRow 2#3 p u b w l) rn rd f.rs f.col f.rm := by
  simp only [encodeSdtImm, transferRow, f.offset12_parts]

theorem encodeSdtReg_shiftImm : encodeSdtReg c p u b w l rn rd f.shiftImm k rm =
    armWord c (transferRow 3#3 p u b w l) rn rd f.rs (f.col.extractLsb' 3 1 ++ k.bits ++ 0#1) rm := by
  simp only [encodeSdtReg, transferRow, f.shiftImm_parts]

theorem encodeCoprocMem_imm8 {cp : BitVec 4} :
    encodeCoprocMem c p u b w l rn rd cp f.imm8 = armWord c (transferRow 6#3 p u b w l) rn rd cp f.col f.rm := by
  simp only [encodeCoprocMem, transferRow, f.imm8_parts]

theorem encode24_low24 {top : BitVec 4} :
    encode24 c top f.low24 = armWord c (top ++ f.row.extractLsb' 0 4) f.rn f.rd f.rs f.col f.rm := by
  simp only [encode24, f.low24_parts]

end

/-- The column of a register shifted by an immediate (R126). -/
theorem ArmFields.shiftCol_eq (h : f.col.getLsbD 0 = false) :
    f.col.extractLsb' 3 1 ++ f.shift.bits ++ 0#1 = f.col := by
  have hcol : ∀ col : BitVec 4, col.getLsbD 0 = false →
      col.extractLsb' 3 1 ++ col.extractLsb' 1 2 ++ 0#1 = col := by decide
  rw [ArmFields.shift, ShiftKind.bits_ofBits, hcol _ h]

theorem encodesTo_of_armWord {i : Instr} {row : BitVec 8} {col : BitVec 4}
    (hi : i.encode = armWord (Cond.ofBits f.cond) row f.rn f.rd f.rs col f.rm) (he : i.encodable = true)
    (hr : row = f.row) (hc : col = f.col) : i.EncodesTo (.arm f.toWord) := by
  subst hr hc
  exact ⟨hi.trans f.armWord_ofBits, he⟩

theorem encodesTo_of_encode28 {i : Instr} (hi : i.encode = encode28 (Cond.ofBits f.cond) f.low28)
    (rowMask row : BitVec 8) (colMask col : BitVec 4)
    (he : i.encodable = inRow f.low28 (rowColPattern rowMask colMask) (rowColPattern row col))
    (hr : f.row &&& rowMask = row) (hc : f.col &&& colMask = col) : i.EncodesTo (.arm f.toWord) := by
  constructor
  · simp only [hi, encode28, f.low28_parts, f.armWord_ofBits]
  · simp only [he, inRow_iff, f.low28_parts, hr, hc, and_self]

end

theorem BlockMode.p_ofBits (p u : Bool) : (BlockMode.ofBits p u).p = p := by cases p <;> cases u <;> rfl

theorem BlockMode.u_ofBits (p u : Bool) : (BlockMode.ofBits p u).u = u := by cases p <;> cases u <;> rfl

section
variable (op : DpOp) (c : Cond) (sf : Bool)

theorem encode_instrImm (rn rd rot : BitVec 4) (imm : Byte) :
    (op.instrImm c sf rn rd rot imm).encode = encodeDpImm op c (op.isTest || sf) rn rd rot imm ∧
    (op.instrImm c sf rn rd rot imm).encodable = true := by
  cases op <;> exact ⟨rfl, rfl⟩

theorem encode_instrShift (rn rd rm : RegNum) (amt : BitVec 5) (k : ShiftKind) :
    (op.instrShift c sf rn rd amt k rm).encode = encodeDpShift op c (op.isTest || sf) rn rd amt k rm ∧
    (op.instrShift c sf rn rd amt k rm).encodable = true := by
  cases op <;> exact ⟨rfl, rfl⟩

theorem encode_instrRegShift (rn rd rs rm : RegNum) (k : ShiftKind) :
    (op.instrRegShift c sf rn rd rs k rm).encode = encodeDpRegShift op c (op.isTest || sf) rn rd rs k rm ∧
    (op.instrRegShift c sf rn rd rs k rm).encodable = true := by
  cases op <;> exact ⟨rfl, rfl⟩

end

/-- The row of a data-processing instruction, outside the PSR-transfer space, from its operation and its S bit. -/
theorem dpRow_ofBits : ∀ row : BitVec 8,
    (row.extractLsb' 5 3 = 0 ∧ isTestRow row = false ∨
      row.extractLsb' 5 3 = 1 ∧ ¬(row = 0x30 ∨ row = 0x34) ∧ ¬(row = 0x32 ∨ row = 0x36)) →
    dpRow (row.extractLsb' 5 3) (DpOp.ofBits (row.extractLsb' 1 4))
      ((DpOp.ofBits (row.extractLsb' 1 4)).isTest || row.getLsbD 0) = row := by decide

section
variable {f : ArmFields}

/-- The undefined cells of rows 0x00 to 0x1F (R140). -/
theorem undefLow_encodesTo (h : undefinedCell f.row f.col = true) :
    (undefLow (Cond.ofBits f.cond) f.row f.col f.low28).EncodesTo (.arm f.toWord) := by
  unfold undefLow
  split_ifs with h9 hlow hodd hw h1 h16 h3 hb
  · have hrow : ∀ row, undefinedCell row 0x9 = true → row < 0x10 → row &&& 0xFC = 0x04 := by decide
    exact encodesTo_of_encode28 rfl 0xFC 0x04 0xF 0x9 rfl (hrow _ (h9 ▸ h) hlow) (by rw [h9]; rfl)
  · have hrow : ∀ row, undefinedCell row 0x9 = true → ¬row < 0x10 → row.getLsbD 0 = true → row &&& 0xF1 = 0x11 := by
      decide
    exact encodesTo_of_encode28 rfl 0xF1 0x11 0xF 0x9 rfl (hrow _ (h9 ▸ h) hlow hodd) (by rw [h9]; rfl)
  · have hrow : ∀ row, undefinedCell row 0x9 = true → ¬row < 0x10 → ¬row.getLsbD 0 = true → row.getLsbD 1 = true →
        row &&& 0xF3 = 0x12 := by decide
    exact encodesTo_of_encode28 rfl 0xF3 0x12 0xF 0x9 rfl (hrow _ (h9 ▸ h) hlow hodd hw) (by rw [h9]; rfl)
  · have hrow : ∀ row, undefinedCell row 0x9 = true → ¬row < 0x10 → ¬row.getLsbD 0 = true → ¬row.getLsbD 1 = true →
        row &&& 0xFB = 0x18 := by decide
    exact encodesTo_of_encode28 rfl 0xFB 0x18 0xF 0x9 rfl (hrow _ (h9 ▸ h) hlow hodd hw) (by rw [h9]; rfl)
  · exact encodesTo_of_encode28 rfl 0xFF 0x16 0xF 0x1 rfl (by rw [h16]; rfl) (by rw [h1]; rfl)
  · have hrow : ∀ row, undefinedCell row 0x1 = true → row ≠ 0x16 → row &&& 0xFB = 0x10 := by decide
    exact encodesTo_of_encode28 rfl 0xFB 0x10 0xF 0x1 rfl (hrow _ (h1 ▸ h) h16) (by rw [h1]; rfl)
  · obtain ⟨hr, -, hc3, -⟩ := (undefinedCell_psr h9).1 h
    have hcol : ∀ col : BitVec 4, col.getLsbD 3 = true → ¬col.getLsbD 0 = true → col &&& 0x9 = 0x8 := by decide
    exact encodesTo_of_encode28 rfl 0xF9 0x10 0x9 0x8 rfl (psrRow_pattern _ hr)
      (hcol _ h3 fun h0 => Bool.noConfusion (h3.symm.trans (hc3 h0)))
  · obtain ⟨hr, -, -, -⟩ := (undefinedCell_psr h9).1 h
    have hcol : ∀ col : BitVec 4, ¬col.getLsbD 3 = true → col.getLsbD 1 = true → col &&& 0xA = 0x2 := by decide
    exact encodesTo_of_encode28 rfl 0xF9 0x10 0xA 0x2 rfl (psrRow_pattern _ hr) (hcol _ h3 hb)
  · obtain ⟨hr, h0, -, -⟩ := (undefinedCell_psr h9).1 h
    have hcol : ∀ col : BitVec 4, col ≠ 0x0 → col ≠ 0x1 → ¬col.getLsbD 3 = true → ¬col.getLsbD 1 = true →
        col &&& 0xE = 0x4 := by decide
    exact encodesTo_of_encode28 rfl 0xF9 0x10 0xE 0x4 rfl (psrRow_pattern _ hr) (hcol _ h0 h1 h3 hb)

/-- Rows 0x00 to 0x1F with col[0] = 0. -/
theorem decodeImmShift_encodesTo (hs : f.row.extractLsb' 5 3 = 0#3) (hc : f.col.getLsbD 0 = false) :
    (decodeImmShift f).EncodesTo (.arm f.toWord) := by
  simp only [decodeImmShift]
  split_ifs with ht h0 hm
  · have hrow : ∀ row, isTestRow row = true → row.getLsbD 1 = true →
        0b00010#5 ++ bit (row.getLsbD 2) ++ 0b10#2 = row := by decide
    exact encodesTo_of_armWord rfl rfl (hrow _ ht hm) h0.symm
  · have hrow : ∀ row, isTestRow row = true → ¬row.getLsbD 1 = true →
        0b00010#5 ++ bit (row.getLsbD 2) ++ 0b00#2 = row := by decide
    exact encodesTo_of_armWord rfl rfl (hrow _ ht hm) h0.symm
  · have h9 : f.col ≠ 0x9 := fun h => by simp [h] at hc
    exact undefLow_encodesTo ((undefinedCell_psr h9).2
      ⟨ht, h0, fun h => Bool.noConfusion (h.symm.trans hc), fun _ h => by simp [h] at hc⟩)
  · obtain ⟨henc, hable⟩ := encode_instrShift (DpOp.ofBits (f.row.extractLsb' 1 4)) (Cond.ofBits f.cond)
      (f.row.getLsbD 0) f.rn f.rd f.rm f.shiftImm f.shift
    exact encodesTo_of_armWord (henc.trans encodeDpShift_shiftImm) hable
      (hs ▸ dpRow_ofBits f.row (.inl ⟨hs, Bool.eq_false_iff.2 ht⟩)) (f.shiftCol_eq hc)

/-- Rows 0x00 to 0x1F with col in 1, 3, 5, 7. -/
theorem decodeRegShift_encodesTo (hs : f.row.extractLsb' 5 3 = 0#3) (h0 : f.col.getLsbD 0 = true)
    (h3 : f.col.getLsbD 3 = false) : (decodeRegShift f).EncodesTo (.arm f.toWord) := by
  simp only [decodeRegShift]
  split_ifs with ht hbx
  · exact encodesTo_of_armWord encode_bx_fields rfl hbx.1.symm hbx.2.symm
  · have hcol : ∀ col : BitVec 4, col.getLsbD 0 = true → col.getLsbD 3 = false → col ≠ 0x9 ∧ col ≠ 0x0 := by decide
    obtain ⟨h9, hc0⟩ := hcol _ h0 h3
    exact undefLow_encodesTo ((undefinedCell_psr h9).2 ⟨ht, hc0, fun _ => h3, not_and.1 hbx⟩)
  · have hcol : ∀ col : BitVec 4, col.getLsbD 0 = true → col.getLsbD 3 = false →
        0#1 ++ col.extractLsb' 1 2 ++ 1#1 = col := by decide
    have hc : 0#1 ++ f.shift.bits ++ 1#1 = f.col := by rw [ArmFields.shift, ShiftKind.bits_ofBits, hcol _ h0 h3]
    obtain ⟨henc, hable⟩ := encode_instrRegShift (DpOp.ofBits (f.row.extractLsb' 1 4)) (Cond.ofBits f.cond)
      (f.row.getLsbD 0) f.rn f.rd f.rs f.rm f.shift
    exact encodesTo_of_armWord henc hable (hs ▸ dpRow_ofBits f.row (.inl ⟨hs, Bool.eq_false_iff.2 ht⟩)) hc

/-- Rows 0x00 to 0x1F with col = 9. -/
theorem decodeMultiply_encodesTo (hs : f.row.extractLsb' 5 3 = 0#3) (hc : f.col = 0x9) :
    (decodeMultiply f).EncodesTo (.arm f.toWord) := by
  simp only [decodeMultiply]
  split_ifs with hmul ha hlong hswp hswpb
  · have hrow : ∀ row : BitVec 8, row ≤ 0x03 → row.getLsbD 1 = true → 0b0000001#7 ++ bit (row.getLsbD 0) = row := by
      decide
    exact encodesTo_of_armWord rfl rfl (hrow _ hmul ha) hc.symm
  · have hrow : ∀ row : BitVec 8, row ≤ 0x03 → ¬row.getLsbD 1 = true → 0b0000000#7 ++ bit (row.getLsbD 0) = row := by
      decide
    exact encodesTo_of_armWord rfl rfl (hrow _ hmul ha) hc.symm
  · have hrow : ∀ row : BitVec 8, 0x08 ≤ row ∧ row ≤ 0x0F →
        0b00001#5 ++ bit (row.getLsbD 2) ++ bit (row.getLsbD 1) ++ bit (row.getLsbD 0) = row := by decide
    have hr := hrow _ hlong
    cases h2 : f.row.getLsbD 2 <;> cases h1 : f.row.getLsbD 1 <;> rw [h2, h1] at hr <;>
      exact encodesTo_of_armWord rfl rfl hr hc.symm
  · exact encodesTo_of_armWord rfl rfl hswp.symm hc.symm
  · exact encodesTo_of_armWord rfl rfl hswpb.symm hc.symm
  · exact undefLow_encodesTo (hc ▸ (undefinedCell_multiply f.row).2 ⟨hs, hmul, hlong, hswp, hswpb⟩)

/-- Rows 0x00 to 0x1F with col in 0xB, 0xD, 0xF. -/
theorem decodeHalfword_encodesTo (hs : f.row.extractLsb' 5 3 = 0#3) (h0 : f.col.getLsbD 0 = true)
    (h3 : f.col.getLsbD 3 = true) (h9 : f.col ≠ 0x9) : (decodeHalfword f).EncodesTo (.arm f.toWord) := by
  have hcol : ∀ col : BitVec 4, col.getLsbD 0 = true → col.getLsbD 3 = true → col ≠ 0x9 →
      col = 0xB ∨ col = 0xD ∨ col = 0xF := by decide
  have hr := transferRow_getLsbD f.row
  rw [hs] at hr
  simp only [decodeHalfword]
  generalize f.row.getLsbD 2 = i at hr
  generalize f.row.getLsbD 0 = l at hr
  rcases hcol _ h0 h3 h9 with hc | hc | hc <;> rw [hc] <;> cases i <;> cases l <;>
    exact encodesTo_of_armWord rfl rfl hr hc.symm

/-- Rows 0x20 to 0x3F. -/
theorem decodeDpImm_encodesTo (hs : f.row.extractLsb' 5 3 = 1#3) : (decodeDpImm f).EncodesTo (.arm f.toWord) := by
  simp only [decodeDpImm]
  split_ifs with hu hm
  · have hrow : ∀ row : BitVec 8, row = 0x30 ∨ row = 0x34 → row &&& 0xFB = 0x30 := by decide
    exact encodesTo_of_encode28 rfl 0xFB 0x30 0 0 rfl (hrow _ hu) BitVec.and_zero
  · have hrow : ∀ row : BitVec 8, row = 0x32 ∨ row = 0x36 → 0b00110#5 ++ bit (row.getLsbD 2) ++ 0b10#2 = row := by
      decide
    exact encodesTo_of_armWord encode_msrImm_imm8 rfl (hrow _ hm) rfl
  · obtain ⟨henc, hable⟩ := encode_instrImm (DpOp.ofBits (f.row.extractLsb' 1 4)) (Cond.ofBits f.cond)
      (f.row.getLsbD 0) f.rn f.rd f.rs f.imm8
    exact encodesTo_of_armWord (henc.trans encodeDpImm_imm8) hable (hs ▸ dpRow_ofBits f.row (.inr ⟨hs, hu, hm⟩)) rfl

/-- Rows 0x40 to 0x5F. -/
theorem decodeSdtImm_encodesTo (hs : f.row.extractLsb' 5 3 = 2#3) : (decodeSdtImm f).EncodesTo (.arm f.toWord) := by
  have hr := transferRow_getLsbD f.row
  rw [hs] at hr
  simp only [decodeSdtImm]
  generalize f.row.getLsbD 4 = p at hr
  generalize f.row.getLsbD 2 = b at hr
  generalize f.row.getLsbD 1 = w at hr
  generalize f.row.getLsbD 0 = l at hr
  cases p <;> cases w <;> cases b <;> cases l <;> exact encodesTo_of_armWord encodeSdtImm_offset12 rfl hr rfl

/-- Rows 0x60 to 0x7F. -/
theorem decodeSdtReg_encodesTo (hs : f.row.extractLsb' 5 3 = 3#3) : (decodeSdtReg f).EncodesTo (.arm f.toWord) := by
  simp only [decodeSdtReg]
  split_ifs with hc
  · have hrow : ∀ row : BitVec 8, row.extractLsb' 5 3 = 3 → row &&& 0xE0 = 0x60 := by decide
    have hcol : ∀ col : BitVec 4, col.getLsbD 0 = true → col &&& 0x1 = 0x1 := by decide
    exact encodesTo_of_encode28 rfl 0xE0 0x60 1 1 rfl (hrow _ hs) (hcol _ hc)
  · have hr := transferRow_getLsbD f.row
    rw [hs] at hr
    have hcol := f.shiftCol_eq (Bool.eq_false_iff.2 hc)
    generalize f.row.getLsbD 4 = p at hr
    generalize f.row.getLsbD 2 = b at hr
    generalize f.row.getLsbD 1 = w at hr
    generalize f.row.getLsbD 0 = l at hr
    cases p <;> cases w <;> cases b <;> cases l <;> exact encodesTo_of_armWord encodeSdtReg_shiftImm rfl hr hcol

/-- The block data transfer format of the fields of a row 0x80 to 0x9F (R135). -/
theorem encodeBlock_fields (hs : f.row.extractLsb' 5 3 = 4#3) :
    encodeBlock (BlockMode.ofBits (f.row.getLsbD 4) (f.row.getLsbD 3)) (Cond.ofBits f.cond) (f.row.getLsbD 2)
      (f.row.getLsbD 1) (f.row.getLsbD 0) f.rn f.list16 = .arm f.toWord := by
  have hr := transferRow_getLsbD f.row
  rw [hs, transferRow] at hr
  simp only [encodeBlock, BlockMode.p_ofBits, BlockMode.u_ofBits, f.list16_parts, hr, f.armWord_ofBits]

/-- Rows 0x80 to 0x9F. -/
theorem decodeBlock_encodesTo (hs : f.row.extractLsb' 5 3 = 4#3) : (decodeBlock f).EncodesTo (.arm f.toWord) := by
  have hw := encodeBlock_fields hs
  have h15 := f.bit_append_list15
  simp only [decodeBlock]
  generalize BlockMode.ofBits (f.row.getLsbD 4) (f.row.getLsbD 3) = m at hw
  generalize f.row.getLsbD 0 = l at hw
  generalize f.row.getLsbD 2 = sf at hw
  generalize f.rd.getLsbD 3 = t at h15
  cases l with
  | false => cases sf <;> cases m <;> exact ⟨hw, rfl⟩
  | true =>
    cases sf with
    | false => cases m <;> exact ⟨hw, rfl⟩
    | true => rw [← h15] at hw; cases t <;> cases m <;> exact ⟨hw, rfl⟩

/-- Rows 0xC0 to 0xFF. -/
theorem decodeCoprocSwi_encodesTo (hs : 6 ≤ (f.row.extractLsb' 5 3).toNat) :
    (decodeCoprocSwi f).EncodesTo (.arm f.toWord) := by
  have hmemRow : ∀ row : BitVec 8, row ≤ 0xDF → 6 ≤ (row.extractLsb' 5 3).toNat → row.extractLsb' 5 3 = 6#3 := by
    decide
  have hregCol : ∀ col : BitVec 4, col.getLsbD 0 = true → col.extractLsb' 1 3 ++ 1#1 = col := by decide
  have hr := transferRow_getLsbD f.row
  simp only [decodeCoprocSwi]
  split_ifs with hmem hl hreg hc hl
  · rw [hmemRow _ hmem hs, hl] at hr
    exact encodesTo_of_armWord encodeCoprocMem_imm8 rfl hr rfl
  · rw [hmemRow _ hmem hs, Bool.eq_false_iff.2 hl] at hr
    exact encodesTo_of_armWord encodeCoprocMem_imm8 rfl hr rfl
  · have hrow : ∀ row : BitVec 8, ¬row ≤ 0xDF → row ≤ 0xEF → row.getLsbD 0 = true →
        0b1110#4 ++ row.extractLsb' 1 3 ++ 1#1 = row := by decide
    exact encodesTo_of_armWord rfl rfl (hrow _ hmem hreg hl) (hregCol _ hc)
  · have hrow : ∀ row : BitVec 8, ¬row ≤ 0xDF → row ≤ 0xEF → ¬row.getLsbD 0 = true →
        0b1110#4 ++ row.extractLsb' 1 3 ++ 0#1 = row := by decide
    exact encodesTo_of_armWord rfl rfl (hrow _ hmem hreg hl) (hregCol _ hc)
  · have hrow : ∀ row : BitVec 8, ¬row ≤ 0xDF → row ≤ 0xEF → 0b1110#4 ++ row.extractLsb' 0 4 = row := by decide
    have hcol : ∀ col : BitVec 4, ¬col.getLsbD 0 = true → col.extractLsb' 1 3 ++ 0#1 = col := by decide
    exact encodesTo_of_armWord rfl rfl (hrow _ hmem hreg) (hcol _ hc)
  · have hrow : ∀ row : BitVec 8, ¬row ≤ 0xEF → (0b1111 : BitVec 4) ++ row.extractLsb' 0 4 = row := by decide
    exact encodesTo_of_armWord encode24_low24 rfl (hrow _ hreg) rfl

/-- Rows 0xA0 to 0xBF: the branches (R136). -/
theorem decodeBranch_encodesTo (hs : f.row.extractLsb' 5 3 = 5#3) :
    (if f.row.getLsbD 4 = false then Instr.b (Cond.ofBits f.cond) f.low24
      else .bl (Cond.ofBits f.cond) f.low24).EncodesTo (.arm f.toWord) := by
  split_ifs with h4
  · have hrow : ∀ row : BitVec 8, row.extractLsb' 5 3 = 5#3 → row.getLsbD 4 = false →
        (0b1010 : BitVec 4) ++ row.extractLsb' 0 4 = row := by decide
    exact encodesTo_of_armWord encode24_low24 rfl (hrow _ hs h4) rfl
  · have hrow : ∀ row : BitVec 8, row.extractLsb' 5 3 = 5#3 → ¬row.getLsbD 4 = false →
        (0b1011 : BitVec 4) ++ row.extractLsb' 0 4 = row := by decide
    exact encodesTo_of_armWord encode24_low24 rfl (hrow _ hs h4) rfl

/-- Rows 0x00 to 0x1F, by the column. -/
theorem decodeLowRows_encodesTo (hs : f.row.extractLsb' 5 3 = 0#3) : (decodeLowRows f).EncodesTo (.arm f.toWord) := by
  unfold decodeLowRows
  split_ifs with h0 h3 h9
  · exact decodeImmShift_encodesTo hs h0
  · exact decodeRegShift_encodesTo hs (Bool.eq_true_of_not_eq_false h0) h3
  · exact decodeMultiply_encodesTo hs h9
  · exact decodeHalfword_encodesTo hs (Bool.eq_true_of_not_eq_false h0) (Bool.eq_true_of_not_eq_false h3) h9

end

/-- Every ARM word is the encoding of the instruction it decodes to (R140). -/
theorem decodeArm_encodesTo (w : Word) : (decodeArm w).EncodesTo (.arm w) := by
  rw [decodeArm, decodeArmFields_eq_bySpace, ← ArmFields.toWord_ofWord w, ArmFields.ofWord_toWord]
  generalize ArmFields.ofWord w = f
  unfold decodeBySpace
  split
  case h_1 hs => exact decodeLowRows_encodesTo (BitVec.eq_of_toNat_eq hs)
  case h_2 hs => exact decodeDpImm_encodesTo (BitVec.eq_of_toNat_eq hs)
  case h_3 hs => exact decodeSdtImm_encodesTo (BitVec.eq_of_toNat_eq hs)
  case h_4 hs => exact decodeSdtReg_encodesTo (BitVec.eq_of_toNat_eq hs)
  case h_5 hs => exact decodeBlock_encodesTo (BitVec.eq_of_toNat_eq hs)
  case h_6 hs => exact decodeBranch_encodesTo (BitVec.eq_of_toNat_eq hs)
  case h_7 =>
    simp only [imp_false] at *
    exact decodeCoprocSwi_encodesTo (by omega)

/-! ## THUMB: encoding what the decoder read

A halfword is the number its fields spell, and a field is a quotient and a remainder of the halfword. -/

theorem getLsbD_iff_div {n : Nat} (x : BitVec n) (k : Nat) : x.getLsbD k = true ↔ x.toNat / 2 ^ k % 2 = 1 := by
  rw [BitVec.getLsbD, Nat.testBit_eq_decide_div_mod_eq, decide_eq_true_eq]

theorem getLsbD_false_iff_div {n : Nat} (x : BitVec n) (k : Nat) :
    x.getLsbD k = false ↔ x.toNat / 2 ^ k % 2 = 0 := by
  rw [← Bool.not_eq_true, getLsbD_iff_div]
  omega

theorem toNat_bit_getLsbD {n : Nat} (x : BitVec n) (k : Nat) :
    (bit (x.getLsbD k)).toNat = x.toNat / 2 ^ k % 2 := by
  rw [bit_getLsbD, toNat_extract_eq_div, Nat.pow_one]

theorem encodesTo_of_toNat {i : Instr} {h x : Half} (hi : i.encode = .thumb x) (he : i.encodable = true)
    (hx : x.toNat = h.toNat) : i.EncodesTo (.thumb h) :=
  ⟨hi.trans (congrArg _ (BitVec.eq_of_toNat_eq hx)), he⟩

section
variable {h : Half}

/-- Format 4 (R144). -/
theorem decodeThumbAlu_encodesTo (ht : h.toNat / 1024 = 16) : (decodeThumbAlu h).EncodesTo (.thumb h) := by
  unfold decodeThumbAlu
  split <;> refine encodesTo_of_toNat rfl rfl ?_
  all_goals
    simp only [toNat_append_eq_add, toNat_extract_eq_div, BitVec.reduceToNat, imp_false] at *
    omega

/-- Format 5 (R145); BX with H1 = 1 has its own constructor. -/
theorem decodeThumbHi_encodesTo (ht : h.toNat / 1024 = 17) : (decodeThumbHi h).EncodesTo (.thumb h) := by
  unfold decodeThumbHi
  simp only
  split
  case h_4 =>
    split_ifs <;> refine encodesTo_of_toNat rfl rfl ?_
    all_goals
      simp only [toNat_append_eq_add, toNat_extract_eq_div, BitVec.reduceToNat, imp_false, toNat_bit_getLsbD,
        getLsbD_iff_div] at *
      omega
  all_goals
    refine encodesTo_of_toNat rfl rfl ?_
    simp only [toNat_append_eq_add, toNat_extract_eq_div, BitVec.reduceToNat, toNat_bit_getLsbD] at *
    omega

/-- Formats 7 and 8 (R147, R148). -/
theorem decodeThumbReg_encodesTo (ht : h.toNat / 4096 = 5) : (decodeThumbReg h).EncodesTo (.thumb h) := by
  unfold decodeThumbReg
  split <;> refine encodesTo_of_toNat rfl rfl ?_
  all_goals
    simp only [toNat_append_eq_add, toNat_extract_eq_div, BitVec.reduceToNat, imp_false] at *
    omega

/-- Formats 16 and 17 (R156, R157). -/
theorem decodeThumbCond_encodesTo (ht : h.toNat / 4096 = 13) : (decodeThumbCond h).EncodesTo (.thumb h) := by
  unfold decodeThumbCond
  split <;> refine encodesTo_of_toNat rfl rfl ?_
  all_goals
    simp only [toNat_append_eq_add, toNat_extract_eq_div, BitVec.reduceToNat, imp_false] at *
    omega

/-- The 1011 space (R153, R154, R160). -/
theorem decodeThumbMisc_encodesTo (ht : h.toNat / 4096 = 11) : (decodeThumbMisc h).EncodesTo (.thumb h) := by
  unfold decodeThumbMisc
  split
  case h_1 =>
    split_ifs <;> refine encodesTo_of_toNat rfl rfl ?_
    all_goals
      simp only [toNat_append_eq_add, toNat_extract_eq_div, BitVec.reduceToNat, getLsbD_iff_div] at *
      omega
  all_goals
    refine encodesTo_of_toNat rfl rfl ?_
    simp only [toNat_append_eq_add, toNat_extract_eq_div, BitVec.reduceToNat, imp_false, bit, BitVec.ofBool_true,
      BitVec.ofBool_false] at *
    omega

end

/-- Every THUMB halfword is the encoding of the instruction it decodes to (R161). -/
theorem decodeThumb_encodesTo (h : Half) : (decodeThumb h).EncodesTo (.thumb h) := by
  have hlt := h.isLt
  unfold decodeThumb
  simp only
  split
  case h_4 =>
    split <;> refine encodesTo_of_toNat rfl rfl ?_
    all_goals
      simp only [toNat_append_eq_add, toNat_extract_eq_div, BitVec.reduceToNat, getLsbD_iff_div,
        getLsbD_false_iff_div] at *
      omega
  case h_9 =>
    simp only [toNat_extract_eq_div] at *
    split_ifs with h10
    · exact decodeThumbHi_encodesTo (by rw [getLsbD_iff_div] at h10; omega)
    · exact decodeThumbAlu_encodesTo (by rw [getLsbD_iff_div] at h10; omega)
  case h_11 | h_12 =>
    simp only [toNat_extract_eq_div] at *
    exact decodeThumbReg_encodesTo (by omega)
  case h_23 | h_24 =>
    simp only [toNat_extract_eq_div] at *
    exact decodeThumbMisc_encodesTo (by omega)
  case h_27 | h_28 =>
    simp only [toNat_extract_eq_div] at *
    exact decodeThumbCond_encodesTo (by omega)
  all_goals
    refine encodesTo_of_toNat rfl rfl ?_
    simp only [toNat_append_eq_add, toNat_extract_eq_div, BitVec.reduceToNat, imp_false] at *
    omega

/-! ## The obligations -/

/-- Settles O2: the bytes of an opcode are read back as its instruction, and that is the instruction encoded. -/
theorem decodeEncode : Obligations.DecodeEncode := by
  intro i rest h
  have hb := decodeBytes_bytes i.encode rest
  rw [Instr.decode_encode h] at hb
  exact hb

/-- Settles O3: format by format, with every undefined encoding in its row of the table. -/
theorem encodeDecode : Obligations.EncodeDecode :=
  ⟨decodeArm_encodesTo, decodeThumb_encodesTo⟩

/-- The decoder reads a table word that is the encoding of an instruction as that instruction. -/
theorem decodeTableWord_eq {nbits w : Nat} {i : Instr} (hw : opcodeOfTable nbits w = some i.encode)
    (h : i.encodable = true) : decodeTableWord nbits w = some i := by
  have hd := decodeEncode i [] h
  rw [List.append_nil] at hd
  cases he : i.encode with
  | arm a =>
    have ha : decodeBytes false (Opcode.arm a).bytes = .ok (i, []) := by rw [he] at hd; exact hd
    simp only [decodeTableWord, hw, he, ha]
  | thumb a =>
    have ha : decodeBytes true (Opcode.thumb a).bytes = .ok (i, []) := by rw [he] at hd; exact hd
    simp only [decodeTableWord, hw, he, ha]

/-- Settles O1: each word is the encoding of the instruction beside it, so the round trip decodes it. -/
theorem decodeWords : Obligations.DecodeWords := by
  refine ⟨?_, ?_, ?_, ?_, ?_, ?_, ?_, ?_, ?_, ?_, ?_, ?_, ?_, ?_⟩ <;> exact decodeTableWord_eq rfl rfl

end Sys2Proof

/-! # The pipeline: the executed instruction, conditions and refills (40_pipeline.md) -/

namespace Sys2Proof.Machine

/-! ## The executed instruction (R181, R182) -/

/-- A latch holds a THUMB opcode zero-extended, so its low half is the opcode (R47). -/
theorem low_half_setWidth (h : Half) : (h.setWidth 32).extractLsb' 0 16 = h := by
  rw [← BitVec.setWidth_eq_extractLsb' (by decide), BitVec.setWidth_setWidth_of_le _ (by decide), BitVec.setWidth_eq]

/-- Where `decoded` holds the opcode that memory has at A, the bytes at A decode to the next instruction: in either
instruction-set state both read them little-endian (R86, R120, R182). -/
theorem State.decodeBytes_nextInstr {s : State} (hd : s.decoded = s.mem.load s.instrAddr s.opWidth) :
    ∃ rest, decodeBytes s.cpsr.t
      [s.mem.byteAt s.instrAddr, s.mem.byteAt (s.instrAddr + 1), s.mem.byteAt (s.instrAddr + 2),
        s.mem.byteAt (s.instrAddr + 3)] = .ok (s.nextInstr, rest) := by
  cases ht : s.cpsr.t with
  | false =>
    have hi : s.nextInstr = decodeArm (s.mem.load s.instrAddr .word) := by
      simp [State.nextInstr, ht, hd, State.opWidth]
    exact ⟨[], hi ▸ rfl⟩
  | true =>
    have hi : s.nextInstr = decodeThumb (s.mem.byteAt (s.instrAddr + 1) ++ s.mem.byteAt s.instrAddr) := by
      simp only [State.nextInstr, ht, hd, State.opWidth, if_true, Mem.load]
      rw [low_half_setWidth]
    exact ⟨[s.mem.byteAt (s.instrAddr + 2), s.mem.byteAt (s.instrAddr + 3)], hi ▸ rfl⟩

/-- Settles O4: the decoded bytes are the next instruction, which a running machine in a legal mode executes between
the start and the end of the step. -/
theorem stepRunsDecoded : Obligations.StepRunsDecoded := by
  intro s m i rest hf hm hd hb
  obtain ⟨rest', hn⟩ := State.decodeBytes_nextInstr hd
  obtain rfl : s.nextInstr = i := by
    rw [hn] at hb
    exact congrArg Prod.fst (Except.ok.inj hb)
  exact step_of_running hf hm

/-! ## Conditions (R186 to R188) -/

/-- Settles O8: each field names its condition, whose formula is the table's. -/
theorem conditionTable : Obligations.ConditionTable := fun _ =>
  ⟨rfl, rfl, rfl, rfl, rfl, rfl, rfl, rfl, rfl, rfl, rfl, rfl, rfl, rfl, rfl, rfl⟩

/-- The reserved condition is U1 under `fault`, whatever the instruction (R187). -/
theorem State.underCond_nv {s : State} (r : Result State) (h : s.params.unpred = .fault) :
    s.underCond .nv r = .fault (.unpredictable .u1 s.instrAddr) := by
  simp [State.underCond, State.guarded, firstStop, h]

/-- Settles O7: every ARM instruction is its meaning under its condition, which is the fetch alone where the condition
fails, or U1. -/
theorem conditionFailed : Obligations.ConditionFailed := by
  intro i c s hi hp
  obtain ⟨r, hr⟩ := exec_underCond hi s
  rw [hr]
  refine ⟨fun hc => ?_, fun hc hu => ?_⟩
  · rw [State.underCond_of_fails r hp hc]
    exact s.computes_tuned s.cpsr 0 0 rfl
  · rw [hc]
    exact State.underCond_nv r hu

/-! ## Refills (R183, R189, R190) -/

section
variable (s : State) (x : Word)

theorem State.branchTo_instrAddr : (s.branchTo x).instrAddr = alignTo s.opWidth x := s.refill_instrAddr x

theorem State.setPc_instrAddr : (s.setPc x).instrAddr = alignTo s.opWidth x := (s.afterDraws 1).refill_instrAddr x

/-- The latches after `set_pc`, by the answers the host's memory gives after the draw (R190, log 6). -/
theorem State.setPc_latches :
    (s.setPc x).decoded = (s.setPc x).portRead .code (alignTo s.opWidth x) s.opWidth ∧
    (s.setPc x).fetched = (s.setPc x).portRead .code (alignTo s.opWidth x + s.opSize) s.opWidth :=
  (s.afterDraws 1).refill_latches x

theorem State.setPc_totalCycles : (s.setPc x).totalCycles = s.totalCycles + s.refillCost x := rfl

/-- `set_pc` adds to the total what a branch adds to the cycles, but for the prefetch a branch discards (R84, R190). -/
theorem State.setPc_charge :
    (s.setPc x).totalCycles + s.cycles + s.params.cost s.pc s.opWidth .code .seq =
      s.totalCycles + (s.branchTo x).cycles := by
  rw [State.setPc_totalCycles, State.branchTo_cycles]
  omega

end

/-- Settles O6: a branch and `set_pc` are one refill at the aligned target and differ in what they charge. -/
theorem refill : Obligations.Refill := by
  intro s x
  obtain ⟨hdecoded, hfetched⟩ := s.setPc_latches x
  rw [s.setPc_instrAddr x]
  exact ⟨State.branched_branchTo x rfl rfl rfl, s.branchTo_instrAddr x, rfl, rfl, rfl, rfl, hdecoded, hfetched, rfl,
    rfl, s.setPc_charge x, rfl, rfl, rfl⟩

end Sys2Proof.Machine

/-! # The barrel shifter and the ALU (41_alu_shifter.md) -/

namespace Sys2Proof.Machine

/-! ## Shifts by a register amount (R226 to R229)

Each kind of shift is one operation on words for every amount, the large ones included; the laws of the shifted value
are those of that operation. -/

section
variable (v : Word) (amount : Byte) (cin : Bool)

/-- 32 or more copies of bit 31 fill the word (R228). -/
theorem signFill_eq_sshiftRight {n : Nat} (h : 32 ≤ n) : signFill v = v.sshiftRight n := by
  unfold signFill
  split
  next hv =>
    rw [BitVec.sshiftRight_eq_of_msb_true hv, BitVec.ushiftRight_eq_zero h]
    rfl
  next hv =>
    rw [BitVec.sshiftRight_eq_of_msb_false (Bool.eq_false_of_not_eq_true hv), BitVec.ushiftRight_eq_zero h]
    rfl

/-- Bit k of a rotated word is the bit n further on, around the word. -/
theorem getLsbD_rotateRight_eq (n : Nat) {k : Nat} (hk : k < 32) :
    (v.rotateRight n).getLsbD k = v.getLsbD ((k + n) % 32) := by
  rw [BitVec.getLsbD_rotateRight]
  by_cases h : k < 32 - n % 32
  · rw [decide_eq_true h, cond_true]
    congr 1
    omega
  · rw [decide_eq_false h, cond_false, decide_eq_true hk, Bool.true_and]
    congr 1
    omega

theorem rotateRight_zero : v.rotateRight 0 = v :=
  BitVec.eq_of_getLsbD_eq fun k hk => by rw [getLsbD_rotateRight_eq v 0 hk, Nat.add_zero, Nat.mod_eq_of_lt hk]

theorem shiftReg_lsl : shiftReg .lsl v amount cin = ⟨v <<< amount.toNat,
    if amount.toNat = 0 then cin else if amount.toNat ≤ 32 then v.getLsbD (32 - amount.toNat) else false⟩ := by
  simp only [shiftReg]
  split_ifs with h0 hlt hle heq
  · simp [h0]
  · rfl
  · omega
  · simp [heq]
  · omega
  · omega
  · rw [BitVec.shiftLeft_eq_zero (by omega)]
    rfl

theorem shiftReg_lsr : shiftReg .lsr v amount cin = ⟨v >>> amount.toNat,
    if amount.toNat = 0 then cin else if amount.toNat ≤ 32 then v.getLsbD (amount.toNat - 1) else false⟩ := by
  simp only [shiftReg]
  split_ifs with h0 hlt hle heq
  · simp [h0]
  · rfl
  · omega
  · rw [BitVec.ushiftRight_eq_zero (by omega), heq, BitVec.msb_eq_getLsbD_last]
    rfl
  · omega
  · omega
  · rw [BitVec.ushiftRight_eq_zero (by omega)]
    rfl

theorem shiftReg_asr : shiftReg .asr v amount cin = ⟨v.sshiftRight amount.toNat,
    if amount.toNat = 0 then cin else v.getLsbD (min amount.toNat 32 - 1)⟩ := by
  simp only [shiftReg]
  split_ifs with h0 hlt
  · simp [h0]
  · rw [Nat.min_eq_left (by omega)]
  · rw [Nat.min_eq_right (by omega), signFill_eq_sshiftRight v (Nat.not_lt.1 hlt), BitVec.msb_eq_getLsbD_last]

theorem shiftReg_ror : shiftReg .ror v amount cin = ⟨v.rotateRight (amount.toNat % 32),
    if amount.toNat = 0 then cin else v.getLsbD ((amount.toNat - 1) % 32)⟩ := by
  simp only [shiftReg]
  split_ifs with h0 hr
  · rw [h0, Nat.zero_mod, rotateRight_zero]
  · rw [hr, rotateRight_zero, show (amount.toNat - 1) % 32 = 31 by omega, BitVec.msb_eq_getLsbD_last]
  · rw [show (amount.toNat - 1) % 32 = amount.toNat % 32 - 1 by omega]

theorem toNat_shiftLeft_eq_mul (n : Nat) : (v <<< n).toNat = v.toNat * 2 ^ n % 2 ^ 32 := by
  rw [BitVec.toNat_shiftLeft, Nat.shiftLeft_eq]

theorem toNat_ushiftRight_eq_div (n : Nat) : (v >>> n).toNat = v.toNat / 2 ^ n := by
  rw [BitVec.toNat_ushiftRight, Nat.shiftRight_eq_div_pow]

theorem toInt_sshiftRight_eq_div (n : Nat) : (v.sshiftRight n).toInt = v.toInt / 2 ^ n := by
  rw [BitVec.toInt_sshiftRight, Int.shiftRight_eq_div_pow, Int.natCast_pow]
  rfl

end

/-- Settles O19: each kind of shift is one operation on words, whose laws are the library's. -/
theorem shiftRegister : Obligations.ShiftRegister := by
  refine ⟨fun s rs => BitVec.extractLsb'_toNat 0 8 _, fun v amount cin => ?_⟩
  rw [shiftReg_lsl, shiftReg_lsr, shiftReg_asr, shiftReg_ror]
  exact ⟨toNat_shiftLeft_eq_mul _ _, rfl, toNat_ushiftRight_eq_div _ _, rfl, toInt_sshiftRight_eq_div _ _, rfl,
    fun k hk => by rw [getLsbD_rotateRight_eq _ _ hk, Nat.add_mod_mod], rfl⟩

/-! ## Shifts by an immediate amount and the immediate rotate (R221 to R225) -/

section
variable (v : Word) (amt : BitVec 5) (cin : Bool)

/-- The amount of LSR and ASR by an immediate: 0 encodes 32 (R223, R224). -/
def rightAmount (amt : BitVec 5) : Nat := if amt.toNat = 0 then 32 else amt.toNat

theorem shiftImm_lsl : shiftImm .lsl v amt cin =
    ⟨v <<< amt.toNat, if amt.toNat = 0 then cin else v.getLsbD (32 - amt.toNat)⟩ := by
  simp only [shiftImm]
  split
  · next h => rw [h, BitVec.shiftLeft_zero]
  · rfl

theorem shiftImm_lsr : shiftImm .lsr v amt cin = ⟨v >>> rightAmount amt, v.getLsbD (rightAmount amt - 1)⟩ := by
  simp only [shiftImm, rightAmount]
  split
  · rw [BitVec.ushiftRight_eq_zero (le_refl 32), BitVec.msb_eq_getLsbD_last]
    rfl
  · rfl

theorem shiftImm_asr : shiftImm .asr v amt cin =
    ⟨v.sshiftRight (rightAmount amt), v.getLsbD (rightAmount amt - 1)⟩ := by
  simp only [shiftImm, rightAmount]
  split
  · rw [signFill_eq_sshiftRight v (le_refl 32), BitVec.msb_eq_getLsbD_last]
  · rfl

theorem shiftImm_ror (h : amt.toNat ≠ 0) :
    shiftImm .ror v amt cin = ⟨v.rotateRight amt.toNat, v.getLsbD (amt.toNat - 1)⟩ := by
  simp only [shiftImm, if_neg h]

/-- ROR by 0 is RRX: 33 bits rotated by one through the carry (R225). -/
theorem shiftImm_rrx (h : amt.toNat = 0) :
    shiftImm .ror v amt cin = ⟨BitVec.ofBool cin ++ v.extractLsb' 1 31, v.getLsbD 0⟩ := by
  simp only [shiftImm, if_pos h]

theorem getLsbD_rrx {k : Nat} (hk : k < 32) :
    (BitVec.ofBool cin ++ v.extractLsb' 1 31 : Word).getLsbD k = if k = 31 then cin else v.getLsbD (k + 1) := by
  show BitVec.getLsbD (w := 1 + 31) _ k = _
  rw [BitVec.getLsbD_append]
  by_cases h : k = 31
  · subst h
    simp
  · rw [if_pos (by omega), if_neg h, BitVec.getLsbD_extractLsb', decide_eq_true (by omega), Bool.true_and,
      Nat.add_comm k]

end

/-- Bit k of the immediate rotate is a bit of the zero-extended immediate (R221). -/
theorem getLsbD_rotateImm (rot : BitVec 4) (imm : Byte) (cin : Bool) {k : Nat} (hk : k < 32) :
    (rotateImm rot imm cin).res.getLsbD k = imm.getLsbD ((k + 2 * rot.toNat) % 32) := by
  simp only [rotateImm]
  rw [getLsbD_rotateRight_eq _ _ hk, BitVec.getLsbD_setWidth, decide_eq_true (Nat.mod_lt _ (by decide)),
    Bool.true_and]

theorem rotateImm_c (rot : BitVec 4) (imm : Byte) (cin : Bool) : (rotateImm rot imm cin).c =
    if rot = 0 then cin else (rotateImm rot imm cin).res.getLsbD 31 := by
  simp only [rotateImm, BitVec.msb_eq_getLsbD_last]

/-! ## Operand2 (R184, R185, R260) -/

section
variable (s : State)

/-- R15 reads as the stored pc: A + 4 in THUMB state, A + 8 in ARM state (R184). -/
theorem State.readReg_pc : s.readReg 15 = s.instrAddr + (if s.cpsr.t = true then 4 else 8) := by
  rw [State.instrAddr, BitVec.sub_add_cancel]
  simp [State.readReg, State.readBank, (Bank.reg_eq_none _ _).2]

theorem Operand2.readReg_of_not_regShift {o : Operand2} (h : o.isRegShift = false) (r : RegNum) :
    o.readReg s r = s.readReg r := by
  cases o with
  | regShift => cases h
  | _ => rfl

/-- In ARM state the register-shift form reads R15 as A + 12 (R185). -/
theorem Operand2.readReg_of_regShift {o : Operand2} (h : o.isRegShift = true) (ht : s.cpsr.t = false) (r : RegNum) :
    o.readReg s r = if r = 15 then s.instrAddr + 12 else s.readReg r := by
  have hpc : s.pc + 4 = s.instrAddr + 12 := by
    rw [State.instrAddr, ht, if_neg Bool.false_ne_true]
    bv_omega
  cases o with
  | regShift => simp only [Operand2.readReg, hpc]
  | _ => cases h

end

/-- Settles O18: the immediate rotate and Operand2 by their definitions; LSL, LSR and ASR are the operations on
words, by 32 where the field of LSR or ASR is 0; ROR is a rotate or RRX. -/
theorem shiftImmediate : Obligations.ShiftImmediate := by
  refine ⟨fun rot imm cin => ⟨fun k hk => getLsbD_rotateImm rot imm cin hk, rotateImm_c rot imm cin⟩,
    fun s o rot imm amt rs rm k => ⟨rfl, rfl, fun ht => ?_, fun ht => ?_, s.readReg_pc⟩, fun v amt cin => ?_⟩
  · simp only [Operand2.value, Operand2.readReg_of_regShift s (o := .regShift rs k rm) rfl ht]
    rfl
  · split
    · next h => exact Operand2.readReg_of_regShift s h ht rm
    · next h => exact Operand2.readReg_of_not_regShift s (by simpa using h) rm
  · dsimp only
    rw [shiftImm_lsl, shiftImm_lsr, shiftImm_asr]
    refine ⟨toNat_shiftLeft_eq_mul _ _, rfl, toNat_ushiftRight_eq_div _ _, rfl, toInt_sshiftRight_eq_div _ _, rfl,
      fun hn k hk => ?_, fun hn k hk => ?_, ?_⟩
    · rw [shiftImm_ror v amt cin hn]
      exact getLsbD_rotateRight_eq v _ hk
    · rw [shiftImm_rrx v amt cin hn]
      exact getLsbD_rrx v cin hk
    · by_cases hn : amt.toNat = 0
      · rw [shiftImm_rrx v amt cin hn, hn]
      · rw [shiftImm_ror v amt cin hn]

/-! ## Signed ranges and signs -/

theorem signedOverflow_eq_outOfRange (x : Int) : signedOverflow x = outOfRange x := (Bool.decide_or _ _).symm

theorem outOfRange_iff (x : Int) : outOfRange x = true ↔ ¬ (-(2 ^ 31 : Int) ≤ x ∧ x < 2 ^ 31) := by
  simp only [outOfRange, decide_eq_true_eq]
  omega

/-- The sign of a word is its bit 31. -/
theorem getLsbD_31_eq_neg (x : Word) : x.getLsbD 31 = decide (x.toInt < 0) :=
  x.msb_eq_getLsbD_last.symm.trans BitVec.msb_eq_toInt

theorem toInt_mem_range (x : Word) : -(2 ^ 31 : Int) ≤ x.toInt ∧ x.toInt < 2 ^ 31 := ⟨x.le_toInt, x.toInt_lt⟩

/-! ## AddWithCarry and Sub (R233, R234) -/

section
variable (l r : Word) (c : Bool)

theorem toNat_carry : ((BitVec.ofBool c).setWidth 32 : Word).toNat = c.toNat := by cases c <;> rfl

theorem toInt_carry : ((BitVec.ofBool c).setWidth 32 : Word).toInt = c.toNat := by cases c <;> rfl

theorem addWithCarry_res_toNat : (addWithCarry l r c).res.toNat = (l.toNat + r.toNat + c.toNat) % 2 ^ 32 := by
  simp only [addWithCarry, BitVec.toNat_add, toNat_carry, Nat.mod_add_mod]

theorem addWithCarry_res_toInt : (addWithCarry l r c).res.toInt = (l.toInt + r.toInt + c.toNat).bmod (2 ^ 32) := by
  simp only [addWithCarry, BitVec.toInt_add, toInt_carry, Int.bmod_add_bmod]

theorem addWithCarry_c : (addWithCarry l r c).c = decide (2 ^ 32 ≤ l.toNat + r.toNat + c.toNat) := rfl

theorem addWithCarry_v : (addWithCarry l r c).v = outOfRange (l.toInt + r.toInt + c.toNat) :=
  signedOverflow_eq_outOfRange _

/-- A sum overflows where the operands have one sign and the result the other (R233). -/
theorem addWithCarry_v_eq_bit :
    (addWithCarry l r c).v = (~~~(l ^^^ r) &&& (l ^^^ (addWithCarry l r c).res)).getLsbD 31 := by
  have hd := addWithCarry_res_toInt l r c
  have hl := toInt_mem_range l
  have hr := toInt_mem_range r
  have hc := c.toNat_le
  rw [addWithCarry_v, BitVec.getLsbD_and, BitVec.getLsbD_not, BitVec.getLsbD_xor, BitVec.getLsbD_xor,
    getLsbD_31_eq_neg, getLsbD_31_eq_neg, getLsbD_31_eq_neg, Bool.eq_iff_iff, outOfRange_iff]
  generalize (addWithCarry l r c).res.toInt = d at hd
  rw [Int.bmod_def] at hd
  simp only [Bool.and_eq_true, Bool.not_eq_true', bne_eq_false_iff_eq, bne_iff_ne, decide_eq_decide, ne_eq,
    Nat.reduceLT, decide_true, true_and]
  split at hd <;> omega

theorem subOverflow_eq_xorOverflow (d : Word) : subOverflow l r d = xorOverflow l r d := by
  rw [subOverflow, xorOverflow, BitVec.msb_and, BitVec.msb_xor, BitVec.msb_xor]

theorem subOverflow_eq_bit (d : Word) : subOverflow l r d = ((l ^^^ r) &&& (l ^^^ d)).getLsbD 31 :=
  BitVec.msb_eq_getLsbD_last _

/-- The bit formula of a difference is signed overflow (R234). -/
theorem sub_v : (sub l r).v = outOfRange (l.toInt - r.toInt) := by
  have h : outOfRange (l.toInt - r.toInt) = l.ssubOverflow r := by
    rw [outOfRange, BitVec.ssubOverflow, Bool.decide_or, Bool.or_comm]
  rw [h, BitVec.ssubOverflow_eq, show (sub l r).v = subOverflow l r (l - r) from rfl, subOverflow_eq_xorOverflow,
    xorOverflow]
  cases l.msb <;> cases r.msb <;> simp

end

/-- Settles O20: V is a range of exact integers in the definition of AddWithCarry and a bit formula in that of Sub; the
two forms agree. -/
theorem addSubFlags : Obligations.AddSubFlags :=
  ⟨fun l r c => ⟨addWithCarry_res_toNat l r c, decide_eq_true_iff, addWithCarry_v l r c ▸ outOfRange_iff _,
      addWithCarry_v_eq_bit l r c⟩,
    fun l r => ⟨rfl, decide_eq_true_iff, subOverflow_eq_bit l r _, sub_v l r ▸ outOfRange_iff _⟩,
    fun _ _ _ _ _ => ⟨rfl, rfl, rfl, rfl, rfl, rfl⟩⟩

/-! ## ADC and SBC (R235, R236) -/

section
variable (rule : AdcVRule) (l r : Word) (c : Bool)

theorem adc_res : (adc rule l r c).res = (addWithCarry l r c).res := by cases rule <;> rfl

theorem adc_c : (adc rule l r c).c = decide (2 ^ 32 ≤ l.toNat + r.toNat + c.toNat) := by cases rule <;> rfl

/-- The carry of a sum with carry is that of the sum or that of adding the carry to its result. -/
theorem addWithCarry_c_two_stage :
    (addWithCarry l r c).c = ((addWithCarry l r false).c || (addWithCarry (l + r) 0 c).c) := by
  have hs : (l + r).toNat = (l.toNat + r.toNat) % 2 ^ 32 := BitVec.toNat_add l r
  have hl := l.isLt
  have hr := r.isLt
  have hc := c.toNat_le
  simp only [addWithCarry_c, show (0 : Word).toNat = 0 from rfl, Bool.toNat_false, ← Bool.decide_or, decide_eq_decide]
  omega

theorem adc_twoStageOr_v : (adc .twoStageOr l r c).v =
    (outOfRange (l.toInt + r.toInt) || outOfRange ((l + r).toInt + c.toNat)) := by
  show ((addWithCarry l r false).v || (addWithCarry (l + r) 0 c).v) = _
  simp only [addWithCarry_v, show (0 : Word).toInt = 0 from rfl, Bool.toNat_false, Nat.cast_zero, Int.add_zero]

/-- At the sum -2^31 - 1 with C = 1, and only there, the carry brings a sum that is out of range back (R235). -/
theorem adc_v_rules_differ : (adc .architectural l r c).v ≠ (adc .twoStageOr l r c).v ↔
    l.toInt + r.toInt = -(2 ^ 31) - 1 ∧ c = true := by
  have hs : (l + r).toInt = (l.toInt + r.toInt).bmod (2 ^ 32) := BitVec.toInt_add l r
  have hl := toInt_mem_range l
  have hr := toInt_mem_range r
  rw [adc_twoStageOr_v, show (adc .architectural l r c).v = outOfRange _ from addWithCarry_v l r c,
    ne_eq, Bool.eq_iff_iff, Bool.or_eq_true, outOfRange_iff, outOfRange_iff, outOfRange_iff]
  generalize (l + r).toInt = d at hs
  rw [Int.bmod_def] at hs
  cases c with
  | false =>
    simp only [Bool.toNat_false, Bool.false_eq_true, and_false, iff_false, not_not]
    split at hs <;> omega
  | true =>
    simp only [Bool.toNat_true, and_true]
    split at hs <;> omega

theorem sbc_res_toNat : (sbc l r c).res.toNat =
    (l.toNat + 2 ^ 32 - r.toNat + 2 ^ 32 - (!c).toNat) % 2 ^ 32 := by
  have hl := l.isLt
  have hr := r.isLt
  have hc := (!c).toNat_le
  rw [show (sbc l r c).res = l - r - (BitVec.ofBool (!c)).setWidth 32 from rfl, BitVec.toNat_sub, BitVec.toNat_sub,
    toNat_carry]
  omega

end

/-- Settles O21: ADC is AddWithCarry with C but for the V of two stages, and a carry of 1 undoes an overflow at one sum
only; SBC borrows through two subtractions. -/
theorem adcSbcFlags : Obligations.AdcSbcFlags :=
  ⟨fun rule l r c => ⟨by rw [adc_res, addWithCarry_res_toNat], by rw [adc_c, decide_eq_true_iff],
      (adc_c rule l r c).trans (addWithCarry_c_two_stage l r c)⟩,
    fun l r c => ⟨addWithCarry_v l r c, adc_twoStageOr_v l r c, adc_v_rules_differ l r c⟩,
    fun l r c => ⟨sbc_res_toNat l r c, decide_eq_true_iff, subOverflow_eq_bit l r _⟩⟩

/-! ## The flags of data processing (R239) -/

section
variable (rule : AdcVRule) (op : DpOp) (l r : Word) (sc : Bool) (p : Psr)

theorem dpAlu_c : (dpAlu rule op l r sc p).c = dpCarry op l r sc p.c := by
  have carry (c : Bool) : c.toNat = if c then 1 else 0 := by cases c <;> rfl
  have borrow (c : Bool) : (!c).toNat = if c then 0 else 1 := by cases c <;> rfl
  cases op with
  | adc => simp only [dpAlu, dpCarry, adc_c, carry]
  | sbc | rsc => simp only [dpAlu, dpCarry, sbc, borrow]
  | _ => rfl

theorem xorOverflow_sbc (x y : Word) (c : Bool) : (sbc x y c).v = xorOverflow x y (dpResult .sbc x y c) := by
  rw [show (sbc x y c).v = subOverflow x y (sbc x y c).res from rfl, subOverflow_eq_xorOverflow]
  exact congrArg (xorOverflow x y) (dpAlu_res .architectural .sbc x y false { Psr.zero with c := c })

theorem dpAlu_v : (dpAlu rule op l r sc p).v = dpOverflow rule op l r p.c p.v := by
  have carry (c : Bool) : (c.toNat : Int) = if c then 1 else 0 := by cases c <;> rfl
  cases op with
  | add | cmn =>
    show (addWithCarry l r false).v = _
    rw [addWithCarry_v]
    simp [dpOverflow]
  | sub | cmp => exact sub_v l r
  | rsb => exact sub_v r l
  | adc =>
    cases rule with
    | architectural =>
      rw [dpOverflow, ← carry]
      exact addWithCarry_v l r p.c
    | twoStageOr =>
      rw [dpOverflow, ← carry]
      exact adc_twoStageOr_v l r p.c
  | sbc => exact xorOverflow_sbc l r p.c
  | rsc => exact xorOverflow_sbc r l p.c
  | _ => rfl

/-- The flags of the ALU output are those the operation's class tabulates (R239). -/
theorem withFlags_dpAlu : p.withFlags (dpAlu rule op l r sc p).res (dpAlu rule op l r sc p).c
    (dpAlu rule op l r sc p).v = dpFlags rule op l r sc p := by
  rw [dpAlu_res, dpAlu_c, dpAlu_v, Psr.withFlags, dpFlags, Psr.flagged, BitVec.msb_eq_getLsbD_last]
  rfl

end

end Sys2Proof.Machine

/-! # Data processing (42_arm_data_processing.md) -/

namespace Sys2Proof.Machine

/-! ## Operations that write Rd (R260, R261) -/

/-- But for R15 as the shift amount, no U-case of operand2 stops both policies (R230, R260). -/
theorem Operand2.checks_both {o : Operand2} (h : o.amountReg ≠ some 15) (named : List RegNum) :
    ∀ k ∈ o.checks named, k.both = true → k.holds = false := by
  cases o with
  | regShift rs k rm =>
    have hrs : rs ≠ 15#4 := fun e => h (congrArg some e)
    simp [Operand2.checks, hrs]
  | _ => simp [Operand2.checks]

/-- U4 does not arise where the register-shift form names no R15 (R230, R260). -/
theorem Operand2.checks_holds {o : Operand2} {named : List RegNum} (h : o.isRegShift = true → 15 ∉ named ++ o.regs) :
    ∀ k ∈ o.checks named, k.holds = false := by
  cases o with
  | regShift rs k rm =>
    have h := h rfl
    simp only [Operand2.regs, List.mem_append, List.mem_cons, List.not_mem_nil, or_false, not_or] at h
    obtain ⟨hn, hrs, hrm⟩ := h
    simpa [Operand2.checks] using (⟨Ne.symm hrs, Ne.symm hrm, hn⟩ : rs ≠ 15#4 ∧ rm ≠ 15#4 ∧ 15#4 ∉ named)
  | _ => simp [Operand2.checks]

/-- No U-case stops an operation that writes Rd in a lenient state. -/
theorem State.dpWriteChecks_none {s : State} {op : DpOp} {rn rd : RegNum} {o : Operand2}
    (ha : o.amountReg ≠ some 15)
    (h : s.Lenient ((op.ignoresRn = true → rn = 0) ∧ (o.isRegShift = true → 15 ∉ op.named rn rd ++ o.regs))) :
    firstStop s.params.unpred (s.dpWriteChecks op rn rd o) = none := by
  refine h.none (fun k hk hb => ?_) (fun hz ⟨hrn, h15⟩ k hk => ?_) <;>
    simp only [State.dpWriteChecks, List.cons_append, List.mem_cons, List.mem_append, List.not_mem_nil, or_false] at hk
  · obtain rfl | hk | rfl := hk
    · cases hb
    · exact Operand2.checks_both ha _ k hk hb
    · cases hb
  · obtain rfl | hk | rfl := hk
    · simpa using hrn
    · exact Operand2.checks_holds h15 k hk
    · exact State.hazardCheck_holds hz _

theorem State.dpWrite_of_register {s : State} {c : Cond} {op : DpOp} (sf : Bool) {rn rd : RegNum} {o : Operand2}
    (hc : c.passes s.cpsr = true) (hd : rd ≠ 15) (h : firstStop s.params.unpred (s.dpWriteChecks op rn rd o) = none) :
    s.dpWrite c op sf rn rd o =
      .next (((s.tuned (if sf = true then s.cpsr.withFlags (s.dpOut op rn o).res (s.dpOut op rn o).c
        (s.dpOut op rn o).v else s.cpsr) o.internalCycles 0).writeReg rd (s.dpOut op rn o).res).fetchNext .seq) := by
  rw [State.dpWrite, State.underCond_of_passes _ hc, State.guarded_of_none _ h, if_neg hd]
  cases sf <;> rfl

/-- Settles O23: in a lenient state no U-case stops the operation, its ALU output is the tabulated result with the
tabulated flags, and it ends as an instruction that writes one register. -/
theorem dpWriteRegister : Obligations.DpWriteRegister := by
  intro c op sf rn rd o s hc ht hd ha hl
  have hg := State.dpWriteChecks_none ha hl
  have hflags : s.cpsr.withFlags (s.dpOut op rn o).res (s.dpOut op rn o).c (s.dpOut op rn o).v =
      dpFlags s.params.adcV op (o.readReg s rn) (o.value s).res (o.value s).c s.cpsr := withFlags_dpAlu ..
  have hres : (s.dpOut op rn o).res = dpResult op (o.readReg s rn) (o.value s).res s.cpsr.c := dpAlu_res ..
  rw [exec_dp, if_neg (by simp [ht]), State.dpWrite_of_register sf hc hd hg, hflags, hres]
  exact s.computes_write _ _ _ rd _ (by split <;> rfl) (by split <;> rfl) hd

end Sys2Proof.Machine

/-! # Data processing into R15, tests and PSR transfer (42_arm_data_processing.md) -/

namespace Sys2Proof.Machine

/-! ## Writes of R15 (R262, R263) -/

theorem State.Lenient.imp {s : State} {p q : Prop} (h : s.Lenient p) (hpq : p → q) : s.Lenient q :=
  Or.imp_right (And.imp_right hpq) h

/-- A write of R15 in a lenient state branches (R192). -/
theorem State.writePc_of_lenient {s : State} {x : Word} (u : State)
    (h : s.Lenient (s.cpsr.t = false → misaligned4 x = false)) : s.writePc u x = .next (u.branchTo x) :=
  State.guarded_of_none _ (h.none (by simp) fun _ hx => by simpa using hx)

/-- A return from an exception mode in a lenient state restores the SPSR and branches (R263, R355). -/
theorem State.exceptionReturn_of_lenient {s : State} {x : Word} (u : State) (hs : s.hasSpsr = true)
    (hm : (s.spsrs.get s.bank).mode ≠ none)
    (h : s.Lenient ((s.spsrs.get s.bank).t = false → misaligned4 x = false)) :
    s.exceptionReturn u x = .next (({ u with cpsr := s.spsrs.get s.bank }).branchTo x) := by
  have hp : s.restoredPsr = s.spsrs.get s.bank := if_pos hs
  have hm' : (s.spsrs.get s.bank).mode.isSome = true := Option.isSome_iff_ne_none.2 hm
  rw [State.exceptionReturn, hp, hs]
  exact State.guarded_of_none _ (h.none (by simp [hm']) fun _ hx => by simpa [hm'] using hx)

/-- Data processing into R15 past its U-cases (R261). -/
theorem State.dpWrite_of_pc {s : State} {c : Cond} {op : DpOp} (sf : Bool) {rn : RegNum} {o : Operand2}
    (hc : c.passes s.cpsr = true) (ha : o.amountReg ≠ some 15)
    (h : s.Lenient ((op.ignoresRn = true → rn = 0) ∧ o.isRegShift = false)) :
    s.dpWrite c op sf rn 15 o =
      if sf = true then s.exceptionReturn (s.internal o.internalCycles) (s.dpOut op rn o).res
      else s.writePc (s.internal o.internalCycles) (s.dpOut op rn o).res := by
  have hg := State.dpWriteChecks_none (rd := 15) ha (h.imp fun ⟨hn, hr⟩ => ⟨hn, by simp [hr]⟩)
  rw [State.dpWrite, State.underCond_of_passes _ hc, State.guarded_of_none _ hg, if_pos rfl]

/-- Settles O24: past the U-cases of the operation its write of R15 branches to the tabulated result. -/
theorem dpWritePc : Obligations.DpWritePc := by
  intro c op rn o s hc ht ha res hl
  have hres : (s.dpOut op rn o).res = res := dpAlu_res ..
  rw [exec_dp, if_neg (by simp [ht]), State.dpWrite_of_pc false hc ha (hl.imp fun ⟨hn, hr, _⟩ => ⟨hn, hr⟩), hres,
    if_neg (by simp), State.writePc_of_lenient _ (hl.imp fun ⟨_, _, hx⟩ => hx)]
  exact s.branches_tuned s.cpsr o.internalCycles 0 res

/-- Settles O25: past the U-cases of the operation it returns from the exception to the tabulated result. -/
theorem dpReturn : Obligations.DpReturn := by
  intro c op rn o s hc ht ha hs hm res hl
  have hres : (s.dpOut op rn o).res = res := dpAlu_res ..
  rw [exec_dp, if_neg (by simp [ht]), State.dpWrite_of_pc true hc ha (hl.imp fun ⟨hn, hr, _⟩ => ⟨hn, hr⟩), hres,
    if_pos rfl, State.exceptionReturn_of_lenient _ hs hm (hl.imp fun ⟨_, _, hx⟩ => hx)]
  exact s.branches_tuned (s.spsrs.get s.bank) o.internalCycles 0 res

/-! ## Operations that set the flags alone (R261) -/

/-- A test names Rn and has an SBZ field Rd; the U-cases are those of MOV, which names Rd and has an SBZ field Rn
(R164, R260). -/
theorem State.dpTestChecks_eq (s : State) (rn sbz : RegNum) (o : Operand2) :
    s.dpTestChecks rn sbz o = s.dpWriteChecks .mov sbz rn o := rfl

/-- Settles O26: in a lenient state no U-case stops the test, and the flags of its ALU output are the tabulated
ones. -/
theorem dpTest : Obligations.DpTest := by
  intro c op sf rn sbz o s hc ht ha hl
  have hg := State.dpWriteChecks_none (op := .mov) ha (hl.imp fun ⟨hsbz, h15⟩ => ⟨fun _ => hsbz, h15⟩)
  have hflags : s.cpsr.withFlags (s.dpOut op rn o).res (s.dpOut op rn o).c (s.dpOut op rn o).v =
      dpFlags s.params.adcV op (o.readReg s rn) (o.value s).res (o.value s).c s.cpsr := withFlags_dpAlu ..
  rw [exec_dp, if_pos ht, State.dpTest, State.underCond_of_passes _ hc, State.dpTestChecks_eq,
    State.guarded_of_none _ hg, ← hflags]
  exact s.computes_tuned _ o.internalCycles 0 rfl

/-! ## MRS (R280) -/

theorem State.moveFromPsr_of_lenient {s : State} {c : Cond} (r : Bool) {sbo sbzHi sbzLo : BitVec 4} {rd : RegNum}
    (hc : c.passes s.cpsr = true) (hd : rd ≠ 15) (h : s.Lenient (sbo = 15 ∧ sbzHi = 0 ∧ sbzLo = 0)) :
    s.moveFromPsr c r sbo rd sbzHi sbzLo =
      .next (((s.afterDraws (s.psrDraws r)).writeReg rd (s.readPsr r)).fetchNext .seq) := by
  have hd' : rd ≠ 15#4 := hd
  rw [State.moveFromPsr, State.underCond_of_passes _ hc]
  refine State.guarded_of_none _ (h.none (by simp [hd']) fun hz hsbz => ?_)
  simpa [hd', State.hazardCheck_holds hz, and_assoc] using hsbz

theorem State.psrDraws_eq (s : State) (r : Bool) :
    s.psrDraws r = if r = true ∧ s.hasSpsr = false then 1 else 0 := by
  simp [State.psrDraws]

theorem State.readPsr_eq (s : State) (r : Bool) :
    s.readPsr r = if r = false then s.cpsr.toWord
      else if s.hasSpsr = true then (s.spsrs.get s.bank).toWord else Config.freeValue s.draws := by
  cases r <;> rfl

/-- Settles O27: in a lenient state no U-case stops MRS, which ends as an instruction that writes one register. -/
theorem mrsReads : Obligations.MrsReads := by
  intro c r sbo sbzHi sbzLo rd s hc hd hl
  show s.Computes (s.moveFromPsr c r sbo rd sbzHi sbzLo) _ _ _ _
  rw [State.moveFromPsr_of_lenient r hc hd hl, ← s.readPsr_eq, ← s.psrDraws_eq]
  exact s.computes_write s.cpsr 0 (s.psrDraws r) rd (s.readPsr r) rfl rfl hd

/-! ## MSR (R281 to R283) -/

/-- A field mask selects the bits of its bytes (R283). -/
theorem psrByteMask_getLsbD (mask : BitVec 4) {k : Nat} (hk : k < 32) :
    (psrByteMask mask).getLsbD k = mask.getLsbD (k / 8) := by
  revert k mask
  decide

/-- In User mode an MSR to the CPSR writes the flags byte alone (R283). -/
theorem State.cpsrByteMask_getLsbD (s : State) (mask : BitVec 4) {k : Nat} (hk : k < 32) :
    (s.cpsrByteMask mask).getLsbD k = decide (mask.getLsbD (k / 8) = true ∧ (s.cpsr.m = 0x10 → 24 ≤ k)) := by
  have huser : Mode.user.bits = 16#5 := rfl
  have hflags : ∀ k, k < 32 → (0xFF000000#32).getLsbD k = decide (24 ≤ k) := by decide
  by_cases hm : s.cpsr.m = 16#5
  · simp [State.cpsrByteMask, psrByteMask_getLsbD mask hk, hflags k hk, huser, hm]
  · simp [State.cpsrByteMask, psrByteMask_getLsbD mask hk, huser, hm]

theorem Psr.merge_getLsbD (p : Psr) (mask v : Word) {k : Nat} (hk : k < 32) :
    (p.merge mask v).toWord.getLsbD k = if mask.getLsbD k = true then v.getLsbD k else p.toWord.getLsbD k := by
  rw [Psr.merge, Psr.toWord_ofWord, BitVec.getLsbD_or, BitVec.getLsbD_and, BitVec.getLsbD_and, BitVec.getLsbD_not]
  cases mask.getLsbD k <;> simp [hk]

theorem Psr.toWord_injective : Function.Injective Psr.toWord := Function.LeftInverse.injective Psr.ofWord_toWord

/-- The CPSR an MSR writes is the one with the selected bits of the operand and the other bits of the CPSR (R283). -/
theorem State.msrCpsr_eq {s : State} {mask : BitVec 4} {v : Word} {p : Psr}
    (h : ∀ k, k < 32 → p.toWord.getLsbD k =
      if mask.getLsbD (k / 8) = true ∧ (s.cpsr.m = 0x10 → 24 ≤ k) then v.getLsbD k else s.cpsr.toWord.getLsbD k) :
    s.msrCpsr mask v = p := by
  refine Psr.toWord_injective (BitVec.eq_of_getLsbD_eq fun k hk => ?_)
  rw [State.msrCpsr, Psr.merge_getLsbD _ _ _ hk, s.cpsrByteMask_getLsbD mask hk, h k hk]
  simp only [decide_eq_true_eq]

/-- The SPSR of a bank after a write of one: the User bank has none (R42, R43). -/
theorem SpsrFile.get_set (f : SpsrFile) (b b' : Bank) (p : Psr) :
    (f.set b p).get b' = if b' = b ∧ b ≠ .usr then p else f.get b' := by
  cases b <;> cases b' <;> rfl

theorem firstStop_append_eq_none {p : UnpredPolicy} {ks ks' : List Check} (h : firstStop p ks = none)
    (h' : firstStop p ks' = none) : firstStop p (ks ++ ks') = none := by
  rw [firstStop_eq_none] at *
  exact List.forall_mem_append.2 ⟨h, h'⟩

section
variable {s : State} {c : Cond} {r : Bool} {mask : BitVec 4} (hc : c.passes s.cpsr = true)
include hc

/-- MSR of a value, past its U-cases and those of its form. -/
theorem State.moveToPsr_of_none {v : Word} {ks : List Check} (hks : firstStop s.params.unpred ks = none)
    (h : firstStop s.params.unpred (s.msrChecks r mask v) = none) :
    s.moveToPsr c r mask v ks = .next ((s.msrWrite r mask v).fetchNext .seq) := by
  rw [State.moveToPsr, State.underCond_of_passes _ hc, State.guarded_of_none _ (firstStop_append_eq_none hks h)]

theorem exec_msrReg_of_lenient {sbo sbz : BitVec 4} {rm : RegNum} (hrm : rm ≠ 15) (hl : s.Lenient (sbo = 15 ∧ sbz = 0))
    (h : firstStop s.params.unpred (s.msrChecks r mask (s.readReg rm)) = none) :
    exec (.msrReg c r mask sbo sbz rm) s = .next ((s.msrWrite r mask (s.readReg rm)).fetchNext .seq) := by
  have hrm' : rm ≠ 15#4 := hrm
  refine State.moveToPsr_of_none hc (hl.none (by simp [hrm']) fun hz hsb => ?_) h
  simpa [hrm', State.hazardCheck_holds hz] using hsb

theorem exec_msrImm_of_lenient {sbo rot : BitVec 4} {imm : Byte} (hl : s.Lenient (sbo = 15))
    (h : firstStop s.params.unpred (s.msrChecks r mask (rotateImm rot imm s.cpsr.c).res) = none) :
    exec (.msrImm c r mask sbo rot imm) s =
      .next ((s.msrWrite r mask (rotateImm rot imm s.cpsr.c).res).fetchNext .seq) :=
  State.moveToPsr_of_none hc (hl.none (by simp) fun _ hsb => by simpa using hsb) h

end

/-- Settles O28: the PSR is the one MSR writes, so neither U18 nor U2 arises, and MSR changes the CPSR alone. -/
theorem msrCpsr : Obligations.MsrCpsr := by
  intro c mask sbo s p v hc hbits ht hm
  have hp : s.msrCpsr mask v = p := State.msrCpsr_eq hbits
  have hchecks : firstStop s.params.unpred (s.msrChecks false mask v) = none := by
    simp [State.msrChecks, firstStop, hp, ht, hm]
  have hend : s.Computes (.next ((s.msrWrite false mask v).fetchNext .seq)) [] p 0 0 := by
    rw [← hp] at ht ⊢
    exact s.computes_tuned (s.msrCpsr mask v) 0 0 ht
  refine ⟨fun sbz rm hrm hv hl => ?_, fun rot imm hv hl => ?_⟩
  · subst hv
    rwa [exec_msrReg_of_lenient hc hrm hl hchecks]
  · subst hv
    rwa [exec_msrImm_of_lenient hc hl hchecks]

/-- Settles O29: U3 alone stands before the write, which is of the SPSR of the current bank: the User bank has none. -/
theorem msrSpsr : Obligations.MsrSpsr := by
  intro c mask sbo s hc writes
  have hchecks (v : Word) {q : Prop} (hl : s.Lenient q) (hq : q → s.hasSpsr = true) :
      firstStop s.params.unpred (s.msrChecks true mask v) = none :=
    hl.none (by simp [State.msrChecks]) fun _ hx => by simp [State.msrChecks, hq hx]
  have hwrites (i : Instr) (v : Word) (hi : exec i s = .next ((s.msrWrite true mask v).fetchNext .seq)) :
      writes i v := by
    refine ⟨_, hi, fun hs k hk => ?_, fun hs => ?_, fun b hb => ?_, rfl, rfl, fun _ => rfl,
      State.advanced_fetchNext .seq rfl rfl rfl rfl rfl, rfl, rfl, rfl, rfl⟩
    · have hb : s.bank ≠ .usr := by simpa [State.hasSpsr] using hs
      simp only [State.fetchNext_spsrs, State.msrWrite, if_true, SpsrFile.get_set, true_and, if_pos hb]
      rw [Psr.merge_getLsbD _ _ _ hk, psrByteMask_getLsbD mask hk]
    · have hb : s.bank = .usr := by simpa [State.hasSpsr] using hs
      simp [State.msrWrite, hb, SpsrFile.set]
    · simp [State.msrWrite, SpsrFile.get_set, hb]
  refine ⟨fun sbz rm hrm hl => hwrites _ _ ?_, fun rot imm hl => hwrites _ _ ?_⟩
  · exact exec_msrReg_of_lenient hc hrm (hl.imp fun ⟨hsbo, hsbz, _⟩ => ⟨hsbo, hsbz⟩)
      (hchecks _ hl fun ⟨_, _, hs⟩ => hs)
  · exact exec_msrImm_of_lenient hc (hl.imp fun ⟨hsbo, _⟩ => hsbo) (hchecks _ hl fun ⟨_, hs⟩ => hs)

end Sys2Proof.Machine

/-! # The register choices that fault in both policies (00_scope.md R13)

Each list of U-cases that instructions share holds one that faults in both policies; whatever else the list holds, the
instruction stops. -/

namespace Sys2Proof.Machine

/-- A U-case of the list holds and stops the model under both policies (R13). -/
def StopsBoth (ks : List Check) : Prop := ∃ k ∈ ks, k.both = true ∧ k.holds = true

theorem StopsBoth.append {ks : List Check} (h : StopsBoth ks) (ks' : List Check) : StopsBoth (ks ++ ks') :=
  h.imp fun _ ⟨hk, hs⟩ => ⟨List.mem_append_left _ hk, hs⟩

theorem StopsBoth.cons {ks : List Check} (h : StopsBoth ks) (k : Check) : StopsBoth (k :: ks) :=
  h.imp fun _ ⟨hk, hs⟩ => ⟨List.mem_cons_of_mem _ hk, hs⟩

/-- An outcome is the fault of some U-case at the address of the executing instruction (R13, R14). -/
def State.Stops (s : State) (r : Result State) : Prop := ∃ u, s.StopsAs r u

/-- An instruction with a U-case that faults in both policies stops; under `fault` the U-case named may be another
(log 11). -/
theorem State.stops_guarded {s : State} {ks : List Check} (h : StopsBoth ks) (r : Result State) :
    s.Stops (s.guarded ks r) := by
  obtain ⟨k, hk, hb, hh⟩ := h
  cases hf : firstStop s.params.unpred ks with
  | none => simp [((firstStop_eq_none _ _).1 hf k hk hh).1] at hb
  | some u => exact ⟨u, by simp [State.StopsAs, State.guarded, hf]⟩

/-! ## The lists of U-cases that several instructions share -/

/-- U4: R15 as the shift amount (R230, R260). -/
theorem amount15_stopsBoth (k : ShiftKind) (rm : RegNum) (named : List RegNum) :
    StopsBoth ((Operand2.regShift 15 k rm).checks named) := ⟨⟨.u4, true, true⟩, by simp [Operand2.checks]⟩

/-- Every indexing but the pre-indexed one without W writes the base back (R310). -/
theorem State.sdtAddress_wb (s : State) {ix : Indexing} (h : ix ≠ .pre false) (u : Bool) (rn : RegNum) (o : Offset) :
    (s.sdtAddress ix u rn o).wb = true := by
  cases ix with
  | pre w => simpa [State.sdtAddress] using h
  | post => rfl
  | user => rfl

/-- U7: R15 as offset register or as a base that is written back (R318). -/
theorem sdt_stopsBoth {s : State} {ix : Indexing} {rn : RegNum} {o : Offset} (u : Bool)
    (h : 15 ∈ o.regs ∨ (rn = 15 ∧ ix ≠ .pre false)) : StopsBoth (sdtChecks rn o (s.sdtAddress ix u rn o)) := by
  obtain h | ⟨rfl, hix⟩ := h
  · exact ⟨⟨.u7, true, o.regs.contains 15⟩, by simp [sdtChecks], rfl, List.contains_iff_mem.2 h⟩
  · exact ⟨⟨.u7, true, true⟩, by simp [sdtChecks, s.sdtAddress_wb hix]⟩

/-- U10 and U7 of a halfword transfer: P = 0 with W = 1, and R15 as offset register or as a base that is written back
(R319, R324). -/
theorem hw_stopsBoth {s : State} {p w : Bool} {rn : RegNum} {o : HwOffset} (u : Bool) (sbz : BitVec 4)
    (h : (p = false ∧ w = true) ∨ 15 ∈ o.regs ∨ (rn = 15 ∧ (p = false ∨ w = true))) :
    StopsBoth (hwChecks p w rn sbz o (s.hwAddress p u w rn o)) := by
  obtain ⟨rfl, rfl⟩ | h | ⟨rfl, hwb⟩ := h
  · exact ⟨⟨.u10, true, true⟩, by simp [hwChecks]⟩
  · exact ⟨⟨.u7, true, o.regs.contains 15⟩, by simp [hwChecks], rfl, List.contains_iff_mem.2 h⟩
  · exact ⟨⟨.u7, true, true⟩, by simp [hwChecks, State.hwAddress, hwb]⟩

/-- U17: R15 as the base of a block transfer (R359). -/
theorem base15_stopsBoth (s : State) (rl : BitVec 16) : StopsBoth (s.blockChecks 15 rl) :=
  ⟨⟨.u17, true, true⟩, by simp [State.blockChecks]⟩

/-- U16: write-back in the User-bank forms (R353, R354). -/
theorem userBank_stopsBoth (s : State) (rn : RegNum) (rl : BitVec 16) :
    StopsBoth (s.blockChecks rn rl ++ s.userBankChecks true) :=
  ⟨⟨.u16, true, true⟩, by simp [State.userBankChecks]⟩

/-- U28: an empty THUMB list (R477 to R480). -/
theorem thumbEmpty_stopsBoth (s : State) (rb : RegNum) {rl : BitVec 16} (h : rl = 0) :
    StopsBoth (s.thumbBlockChecks rb rl) :=
  ⟨⟨.u28, true, true⟩, by simp [State.thumbBlockChecks, h]⟩

/-! ## The instructions -/

section
variable {s : State} {c : Cond} (hc : c.passes s.cpsr = true)
include hc

theorem State.stops_arm {ks : List Check} {r : Result State} (h : StopsBoth ks) :
    s.Stops (s.underCond c (s.guarded ks r)) := by
  rw [State.underCond_of_passes _ hc]
  exact State.stops_guarded h r

theorem amount15_stops (op : DpOp) (sf : Bool) (rn rd rm : RegNum) (k : ShiftKind) :
    s.Stops (exec (op.instrRegShift c sf rn rd 15 k rm) s) := by
  show s.Stops (exec ((Operand2.regShift 15 k rm).instr op c sf rn rd) s)
  rw [exec_dp]
  split <;> exact State.stops_arm hc (((amount15_stopsBoth k rm _).cons _).append _)

/-- U24: MRS into R15 and MSR from R15 (R280, R281). -/
theorem psr15_stops (r : Bool) (x y z : BitVec 4) :
    s.Stops (exec (.mrs c r x 15 y z) s) ∧ s.Stops (exec (.msrReg c r x y z 15) s) :=
  ⟨State.stops_arm hc ⟨⟨.u24, true, true⟩, by simp⟩, State.stops_arm hc ⟨⟨.u24, true, true⟩, by simp⟩⟩

/-- U6: R15 in a multiply with a 32-bit result (R377). -/
theorem multiply15_stops {named : List RegNum} (h : 15 ∈ named) (ks : List Check) (sf : Bool) (rd rm : RegNum)
    (res : Word) (k : Nat) : s.Stops (s.multiply c ks named sf rd rm res k) :=
  State.stops_arm hc ⟨⟨.u6, true, named.contains 15⟩, by simp, rfl, List.contains_iff_mem.2 h⟩

theorem multiplyShort15_stops (sf : Bool) {rd rs rm : RegNum} (rn : RegNum) (h : 15 ∈ [rd, rs, rm]) :
    s.Stops (exec (.mul c sf rd rn rs rm) s) ∧ s.Stops (exec (.mla c sf rd rn rs rm) s) := by
  have hmla : 15 ∈ [rd, rn, rs, rm] := List.Sublist.mem h (by simp)
  exact ⟨multiply15_stops hc h _ sf rd rm _ _, multiply15_stops hc hmla _ sf rd rm _ _⟩

/-- U6: R15 or RdHi = RdLo in a long multiply (R377). -/
theorem longMul_stops (sg ac sf : Bool) {rh rl rs rm : RegNum} (h : rh = rl ∨ 15 ∈ [rh, rl, rs, rm]) :
    s.Stops (exec (longMulInstr sg ac c sf rh rl rs rm) s) := by
  have hm (res : BitVec 64) (k : Nat) : s.Stops (s.multiplyLong c sf rh rl rs rm res k) := by
    refine State.stops_arm hc ?_
    obtain rfl | h := h
    · exact ⟨⟨.u6, true, true⟩, by simp⟩
    · exact ⟨⟨.u6, true, [rh, rl, rs, rm].contains 15⟩, by simp, rfl, List.contains_iff_mem.2 h⟩
  cases sg <;> cases ac <;> exact hm _ _

theorem sdt_stops (b : Bool) {ix : Indexing} (u : Bool) {rn : RegNum} (rd : RegNum) {o : Offset}
    (h : 15 ∈ o.regs ∨ (rn = 15 ∧ ix ≠ .pre false)) :
    s.Stops (exec (o.loadInstr b c ix u rn rd) s) ∧ s.Stops (exec (o.storeInstr b c ix u rn rd) s) := by
  have hs := sdt_stopsBoth (s := s) u h
  rw [exec_load, exec_store]
  cases b <;> exact ⟨State.stops_arm hc (hs.append _), State.stops_arm hc (hs.append _)⟩

/-- U7: LDRB into R15 (R318). -/
theorem ldrb15_stops (ix : Indexing) (u : Bool) (rn : RegNum) (o : Offset) :
    s.Stops (exec (o.loadInstr true c ix u rn 15) s) := by
  rw [exec_load]
  exact State.stops_arm hc ⟨⟨.u7, true, true⟩, by simp⟩

/-- The three loads of the halfword format stop where the U-cases they share do. -/
theorem hwLoad_stops (h : HalfLoad) {p u w : Bool} {rn rd sbz : RegNum} {o : HwOffset}
    (hs : StopsBoth (hwChecks p w rn (o.sbz sbz) o (s.hwAddress p u w rn o) ++
      [⟨.u7, true, rd == 15⟩, ⟨.u8, false, (s.hwAddress p u w rn o).wb && rd == rn⟩])) :
    s.Stops (exec (o.loadInstr h c p u w rn rd sbz) s) := by
  rw [exec_halfLoad]
  cases h <;> exact State.stops_arm hc ((hs.append _).append _)

theorem hw_stops (h : HalfLoad) {p w : Bool} (u : Bool) {rn : RegNum} (rd sbz : RegNum) {o : HwOffset}
    (hr : (p = false ∧ w = true) ∨ 15 ∈ o.regs ∨ (rn = 15 ∧ (p = false ∨ w = true))) :
    s.Stops (exec (o.loadInstr h c p u w rn rd sbz) s) ∧ s.Stops (exec (o.storeInstr c p u w rn rd sbz) s) := by
  have hs := hw_stopsBoth (s := s) u (o.sbz sbz) hr
  rw [exec_halfStore]
  exact ⟨hwLoad_stops hc h (hs.append _), State.stops_arm hc (hs.append _)⟩

/-- U7: a halfword or signed load into R15 (R324). -/
theorem hwLoad15_stops (h : HalfLoad) (p u w : Bool) (rn sbz : RegNum) (o : HwOffset) :
    s.Stops (exec (o.loadInstr h c p u w rn 15 sbz) s) := hwLoad_stops hc h ⟨⟨.u7, true, true⟩, by simp⟩

/-- U23: R15 in a swap (R327). -/
theorem swap15_stops {rn rd rm : RegNum} (sbz : RegNum) (h : 15 ∈ [rn, rd, rm]) :
    s.Stops (exec (.swp c rn rd sbz rm) s) ∧ s.Stops (exec (.swpb c rn rd sbz rm) s) := by
  have hk : (rd == 15 || rn == 15 || rm == 15) = true := by
    simp only [List.mem_cons, List.not_mem_nil, or_false, eq_comm (a := (15 : RegNum))] at h
    simpa [or_comm, or_left_comm] using h
  have hs (ks ks' : List Check) : StopsBoth ([⟨.u5, false, sbz != 0⟩, ⟨.u23, true, rd == 15 || rn == 15 || rm == 15⟩,
      ⟨.u23, false, rn == rd || rn == rm⟩] ++ ks ++ ks') :=
    ⟨⟨.u23, true, rd == 15 || rn == 15 || rm == 15⟩, by simp, rfl, hk⟩
  exact ⟨State.stops_arm hc (hs _ _), State.stops_arm hc (hs _ _)⟩

theorem blockBase15_stops (m : BlockMode) (w : Bool) (rl : BitVec 16) (rl' : BitVec 15) :
    s.Stops (exec (m.stm c w 15 rl) s) ∧ s.Stops (exec (m.ldm c w 15 rl) s) ∧
    s.Stops (exec (m.stmUser c w 15 rl) s) ∧ s.Stops (exec (m.ldmUser c w 15 rl') s) ∧
    s.Stops (exec (m.ldmRet c w 15 rl') s) := by
  have hs := base15_stopsBoth s
  rw [exec_stm, exec_ldm, exec_stmUser, exec_ldmUser, exec_ldmRet]
  exact ⟨State.stops_arm hc ((hs _).append _), State.stops_arm hc ((hs _).append _),
    State.stops_arm hc (((hs _).append _).append _), State.stops_arm hc (((hs _).append _).append _),
    State.stops_arm hc ((hs _).append _)⟩

theorem userBankWriteBack_stops (m : BlockMode) (rn : RegNum) (rl : BitVec 16) (rl' : BitVec 15) :
    s.Stops (exec (m.stmUser c true rn rl) s) ∧ s.Stops (exec (m.ldmUser c true rn rl') s) := by
  have hs := userBank_stopsBoth s rn
  rw [exec_stmUser, exec_ldmUser]
  exact ⟨State.stops_arm hc ((hs _).append _), State.stops_arm hc ((hs _).append _)⟩

end

theorem thumbEmpty_stops (s : State) :
    s.Stops (exec (.tPush false 0) s) ∧ s.Stops (exec (.tPop false 0) s) ∧
    ∀ rb, s.Stops (exec (.tStmia rb 0) s) ∧ s.Stops (exec (.tLdmia rb 0) s) := by
  have hstm (m : BlockMode) (rb : RegNum) {rl : BitVec 16} (h : rl = 0) : s.Stops (s.thumbStm m rb rl) :=
    State.stops_guarded ((thumbEmpty_stopsBoth s rb h).append _) _
  have hpop : s.Stops (s.pop false 0) := by
    rw [State.pop]
    exact State.stops_guarded ((thumbEmpty_stopsBoth s 13 (rl := popList false 0) rfl).append _) _
  have hldm (rb : LowReg) : s.Stops (s.thumbLdm rb 0) := by
    rw [State.thumbLdm]
    exact State.stops_guarded ((thumbEmpty_stopsBoth s rb.toReg rfl).append _) _
  exact ⟨hstm .db 13 (rl := pushList false 0) rfl, hpop, fun rb => ⟨hstm .ia rb.toReg rfl, hldm rb⟩⟩

/-- Settles O49: form by form a U-case that faults in both policies holds, so one stops the instruction. -/
theorem registerStops : Obligations.RegisterStops := by
  intro c s hc
  exact ⟨amount15_stops hc,
    psr15_stops hc,
    fun sf rd rn rs rm h => multiplyShort15_stops hc sf rn h,
    fun sf rd rs rm => multiply15_stops hc (by simp) _ sf rd rm _ _,
    fun sg ac sf rh rl rs rm h => longMul_stops hc sg ac sf h,
    fun b ix u rn rd o h => sdt_stops hc b u rd h,
    ldrb15_stops hc,
    fun h p u w rn rd sbz o hr => hw_stops hc h u rd sbz hr,
    hwLoad15_stops hc,
    fun rn rd sbz rm h => swap15_stops hc sbz h,
    blockBase15_stops hc,
    userBankWriteBack_stops hc,
    thumbEmpty_stops s⟩

end Sys2Proof.Machine

/-! # Single, halfword and swap transfers (43_arm_load_store.md) -/

namespace Sys2Proof.Machine

/-! ## Addresses and loaded values -/

/-- A word load rotates by the address modulo 4 (R88). -/
theorem State.loadWordRotated_eq (s : State) (a : Word) :
    s.loadWordRotated a = (s.memRead (alignTo .word a) .word).rotateRight (8 * (a.toNat % 4)) := by
  simp [State.loadWordRotated]

/-- An even address is presented as it is for a halfword (R87). -/
theorem alignTo_half_of_even {a : Word} (h : a.getLsbD 0 = false) : alignTo .half a = a := by
  have h2 : a.toNat % 2 ≠ 1 := by simpa [BitVec.getLsbD, Nat.testBit_zero] using h
  apply BitVec.eq_of_toNat_eq
  rw [alignTo_toNat, Width.bytes]
  omega

/-- LDRSH presents its address as it is: a byte where the address is odd, a halfword where it is even (R323). -/
theorem alignTo_signedHalfWidth (a : Word) : alignTo (signedHalfWidth a) a = a := by
  unfold signedHalfWidth
  split
  · rfl
  · next h => exact alignTo_half_of_even (by simpa using h)

/-- The offset in two halves of the immediate form (R319). -/
theorem setWidth_append_halves (hi lo : BitVec 4) :
    ((hi ++ lo).setWidth 32 : Word) = BitVec.ofNat 32 (16 * hi.toNat + lo.toNat) := by
  rw [← BitVec.ofNat_toNat, BitVec.toNat_append, ← Nat.shiftLeft_add_eq_or_of_lt lo.isLt, Nat.shiftLeft_eq,
    Nat.mul_comm]

/-- The template of R310, in each indexing. -/
theorem State.sdtAddress_eq (s : State) (u w : Bool) (rn : RegNum) {o : Offset} {off : Word} (h : o.value s = off) :
    let moved := offsetBase u (s.readReg rn) off
    s.sdtAddress (.pre w) u rn o = ⟨moved, moved, w⟩ ∧ s.sdtAddress .post u rn o = ⟨s.readReg rn, moved, true⟩ ∧
    s.sdtAddress .user u rn o = ⟨s.readReg rn, moved, true⟩ := by
  subst h
  exact ⟨rfl, rfl, rfl⟩

/-- The template of R319. -/
theorem State.hwAddress_eq (s : State) (p u w : Bool) (rn : RegNum) {o : HwOffset} {off : Word} (h : o.value s = off) :
    let moved := offsetBase u (s.readReg rn) off
    s.hwAddress p u w rn o = ⟨if p = true then moved else s.readReg rn, moved, !p || w⟩ := by
  subst h
  rfl

/-! ## Single data transfers past their U-cases (R318) -/

/-- The U-cases of every single data transfer do not arise but for R15. -/
theorem sdtChecks_none {rn : RegNum} {o : Offset} {a : Address} (p : UnpredPolicy) (hn : a.wb = true → rn ≠ 15)
    (ho : 15 ∉ o.regs) : firstStop p (sdtChecks rn o a) = none := by
  have hn : a.wb = true → rn ≠ 15#4 := hn
  have ho : 15#4 ∉ o.regs := ho
  simpa [firstStop_eq_none, sdtChecks, ho] using hn

/-- A single data transfer whose own U-cases `ks` do not stop it goes on. -/
theorem State.sdt_goesOn {s : State} {c : Cond} {rn : RegNum} {o : Offset} {a : Address} {ks : List Check}
    (r : Result State) (hc : c.passes s.cpsr = true) (hn : a.wb = true → rn ≠ 15) (ho : 15 ∉ o.regs)
    (hks : firstStop s.params.unpred ks = none) : s.underCond c (s.guarded (sdtChecks rn o a ++ ks) r) = r := by
  rw [State.underCond_of_passes _ hc]
  exact State.guarded_of_none _ (firstStop_append_eq_none (sdtChecks_none _ hn ho) hks)

section
variable {s : State} {c : Cond} {ix : Indexing} {u : Bool} {rn rd : RegNum} {o : Offset} {a : Address}
  (hc : c.passes s.cpsr = true) (ha : s.sdtAddress ix u rn o = a) (hn : a.wb = true → rn ≠ 15) (ho : 15 ∉ o.regs)
include hc ha hn ho

theorem State.ldr_of_lenient (hl : s.Lenient (a.wb = true → rd ≠ rn)) :
    s.ldr c ix u rn rd o =
      if rd = 15 then s.writePc (s.loadTail (alignTo .word a.addr) .word rn a) (s.loadWordRotated a.addr)
      else .next (((s.loadTail (alignTo .word a.addr) .word rn a).writeReg rd (s.loadWordRotated a.addr)).fetchNext
        .seq) := by
  subst ha
  exact State.sdt_goesOn _ hc hn ho (hl.none (by simp) fun hz hb => by simpa [State.hazardCheck_holds hz] using hb)

theorem State.ldrb_of_lenient (hd : rd ≠ 15) (hl : s.Lenient (a.wb = true → rd ≠ rn)) :
    s.ldrb c ix u rn rd o =
      .next (((s.loadTail a.addr .byte rn a).writeReg rd (s.memRead a.addr .byte)).fetchNext .seq) := by
  have hd : rd ≠ 15#4 := hd
  subst ha
  exact State.sdt_goesOn _ hc hn ho (hl.none (by simp [hd]) fun hz hb => by simpa [hd, State.hazardCheck_holds hz] using hb)

theorem State.str_of_lenient
    (hl : s.Lenient ((a.wb = true → rd ≠ rn) ∧ misaligned4 a.addr = false ∧
      s.hitsPrefetch (alignTo .word a.addr) .word = false)) :
    s.str c ix u rn rd o = .next (s.storeTail (alignTo .word a.addr) .word (s.storeValue rd) rn a) := by
  subst ha
  exact State.sdt_goesOn _ hc hn ho (hl.none (by simp) fun hz h => by simpa [State.hazardCheck_holds hz] using h)

theorem State.strb_of_lenient
    (hl : s.Lenient ((a.wb = true → rd ≠ rn) ∧ rd ≠ 15 ∧ s.hitsPrefetch a.addr .byte = false)) :
    s.strb c ix u rn rd o = .next (s.storeTail a.addr .byte (s.storeValue rd) rn a) := by
  subst ha
  refine State.sdt_goesOn _ hc hn ho (hl.none (by simp) ?_)
  rintro hz ⟨hb, hd, hp⟩
  have hd : rd ≠ 15#4 := hd
  simpa [hd, hp, State.hazardCheck_holds hz] using hb

end

/-- Settles O32: the addresses are those of the template; past its U-cases the load ends as every load of a register
other than R15. -/
theorem loadSingle : Obligations.LoadSingle := by
  refine ⟨fun s u w rn o => ?_, fun byte c ix u rn rd o s => ?_⟩
  · cases o with
    | imm off => exact s.sdtAddress_eq u w rn (BitVec.ofNat_toNat 32 off).symm
    | reg amt k rm => exact s.sdtAddress_eq u w rn rfl
  · intro a hc hd hn ho hl
    rw [exec_load]
    cases byte with
    | true =>
      rw [if_pos rfl, State.ldrb_of_lenient hc rfl hn ho hd hl]
      exact s.computes_load _ _ rn rd a _ hd hn
    | false =>
      rw [if_neg (by simp), State.ldr_of_lenient hc rfl hn ho hl, if_neg hd, s.loadWordRotated_eq]
      exact s.computes_load _ _ rn rd a _ hd hn

/-- Settles O33: R15 as Rd is no U8, and past U25 the load ends as every load of R15. -/
theorem loadPc : Obligations.LoadPc := by
  intro c ix u rn o s a data hc hn ho hl
  have hw : s.loadWordRotated a.addr = data := s.loadWordRotated_eq a.addr
  rw [exec_load, if_neg (by simp), State.ldr_of_lenient hc rfl hn ho (hl.imp fun _ hwb e => hn hwb e.symm),
    if_pos rfl, hw, State.writePc_of_lenient _ hl]
  exact s.branches_load _ _ rn a data hn

/-- Settles O34: past its U-cases the store ends as every store. -/
theorem storeSingle : Obligations.StoreSingle := by
  intro byte c ix u rn rd o s a w hc hn ho hl
  rw [exec_store]
  cases byte with
  | true =>
    rw [if_pos rfl, State.strb_of_lenient hc rfl hn ho (hl.imp fun ⟨hb, hd, _, hp⟩ => ⟨hb, hd rfl, hp⟩)]
    exact s.stores_storeTail _ _ _ rn a hn
  | false =>
    rw [if_neg (by simp), State.str_of_lenient hc rfl hn ho (hl.imp fun ⟨hb, _, hm, hp⟩ => ⟨hb, hm rfl, hp⟩)]
    exact s.stores_storeTail _ _ _ rn a hn

/-! ## Halfword transfers past their U-cases (R319, R324) -/

/-- The U-cases of every halfword transfer do not arise but for P = 0 with W = 1, R15 and a wrong SBZ field. -/
theorem State.hwChecks_none {s : State} {p w : Bool} {rn sbz : RegNum} {o : HwOffset} {a : Address}
    (hpw : p = true ∨ w = false) (hn : a.wb = true → rn ≠ 15) (ho : 15 ∉ o.regs)
    (hl : s.Lenient (∀ rm, o = .reg rm → sbz = 0)) :
    firstStop s.params.unpred (hwChecks p w rn (o.sbz sbz) o a) = none := by
  have hn : a.wb = true → rn ≠ 15#4 := hn
  have ho : 15#4 ∉ o.regs := ho
  have hpw : (!p && w) = false := by
    obtain rfl | rfl := hpw <;> simp
  refine hl.none ?_ fun _ hsbz => ?_
  · simpa [hwChecks, ho, hpw] using hn
  · have hz : o.sbz sbz = 0#4 := by
      cases o with
      | reg rm => exact hsbz rm rfl
      | imm hi lo => rfl
    simpa [hwChecks, ho, hpw, hz] using hn

/-- U11 does not stop a lenient state (R90). -/
theorem State.oddCheck_none {s : State} {a : Word} (h : s.Lenient (a.getLsbD 0 = false)) :
    firstStop s.params.unpred [oddCheck a] = none := by
  refine h.none (by simp [oddCheck]) fun _ h => ?_
  simp only [List.mem_singleton, forall_eq, oddCheck, h]

section
variable {s : State} {c : Cond} {p u w : Bool} {rn rd sbz : RegNum} {o : HwOffset} {a : Address}
  (hc : c.passes s.cpsr = true) (ha : s.hwAddress p u w rn o = a) (hpw : p = true ∨ w = false)
  (hn : a.wb = true → rn ≠ 15) (ho : 15 ∉ o.regs)
include hc ha hpw hn ho

/-- A load of the halfword format whose own U-cases `ks` do not stop it ends as every load (R320, R322, R323). -/
theorem State.computes_hwLoad (hd : rd ≠ 15) {ea : Word} {wd : Width} (data : Word) {ks : List Check}
    (hea : alignTo wd a.addr = ea) (hks : firstStop s.params.unpred ks = none)
    (hl : s.Lenient ((∀ rm, o = .reg rm → sbz = 0) ∧ (a.wb = true → rd ≠ rn))) :
    s.Computes (s.hwLoad c p u w rn rd (o.sbz sbz) o ea wd data ks) (State.written rn a (some (rd, data))) s.cpsr
      (s.params.cost (alignTo wd a.addr) wd .data .nonSeq + 1) 0 := by
  have hd' : rd ≠ 15#4 := hd
  have hrd : firstStop s.params.unpred [⟨.u7, true, rd == 15⟩, ⟨.u8, false, a.wb && rd == rn⟩] = none :=
    hl.none (by simp [hd']) fun _ ⟨_, hb⟩ => by simpa [hd'] using hb
  have hhz : firstStop s.params.unpred [s.hazardCheck (rn :: rd :: o.regs)] = none :=
    hl.none (by simp) fun hz _ => by simp [State.hazardCheck_holds hz]
  subst ha hea
  rw [State.hwLoad, State.underCond_of_passes _ hc, State.guarded_of_none]
  · exact s.computes_load _ wd rn rd _ data hd hn
  · exact firstStop_append_eq_none (firstStop_append_eq_none (firstStop_append_eq_none
      (State.hwChecks_none hpw hn ho (hl.imp And.left)) hrd) hks) hhz

theorem State.strh_of_lenient
    (hl : s.Lenient ((∀ rm, o = .reg rm → sbz = 0) ∧ (a.wb = true → rd ≠ rn) ∧ rd ≠ 15 ∧ a.addr.getLsbD 0 = false ∧
      s.hitsPrefetch (alignTo .half a.addr) .half = false)) :
    s.strh c p u w rn rd (o.sbz sbz) o =
      .next (s.storeTail (alignTo .half a.addr) .half (s.storeValue rd) rn a) := by
  subst ha
  rw [State.strh, State.underCond_of_passes _ hc]
  refine State.guarded_of_none _ (firstStop_append_eq_none (State.hwChecks_none hpw hn ho (hl.imp And.left))
    (hl.none (by simp [oddCheck]) ?_))
  rintro hz ⟨_, hb, hd, hodd, hp⟩
  have hd : rd ≠ 15#4 := hd
  simp only [oddCheck, hodd]
  simpa [hd, hp, State.hazardCheck_holds hz] using hb

end

/-- Settles O35: the address is that of the template; each of the three loads is the shared one, with its value, the
width of its access and its U-case of an odd address. -/
theorem loadHalfword : Obligations.LoadHalfword := by
  refine ⟨fun s p u w rn o => ?_, fun h c p u w rn rd sbz o s => ?_⟩
  · cases o with
    | reg rm => exact s.hwAddress_eq p u w rn rfl
    | imm hi lo => exact s.hwAddress_eq p u w rn (setWidth_append_halves hi lo)
  · intro a odd hc hd hpw hn ho hl
    have hb : s.Lenient ((∀ rm, o = .reg rm → sbz = 0) ∧ (a.wb = true → rd ≠ rn)) :=
      hl.imp fun ⟨hsbz, hb, _⟩ => ⟨hsbz, hb⟩
    have hodd (h' : h ≠ .signedByte) : firstStop s.params.unpred [oddCheck a.addr] = none :=
      State.oddCheck_none (hl.imp fun ⟨_, _, ho⟩ => ho h')
    rw [exec_halfLoad]
    cases h with
    | unsignedHalf => exact State.computes_hwLoad hc rfl hpw hn ho hd _ rfl (hodd (by simp)) hb
    | signedByte => exact State.computes_hwLoad hc rfl hpw hn ho hd _ rfl rfl hb
    | signedHalf =>
      exact State.computes_hwLoad hc rfl hpw hn ho hd _ (alignTo_signedHalfWidth _) (hodd (by simp)) hb

/-- Settles O36: past its U-cases STRH ends as every store. -/
theorem storeHalfword : Obligations.StoreHalfword := by
  intro c p u w rn rd sbz o s a hc hpw hn ho hl
  rw [exec_halfStore, State.strh_of_lenient hc rfl hpw hn ho hl]
  exact s.stores_storeTail _ _ _ rn a hn

/-! ## Swap (R325 to R327) -/

/-- The end of a swap: Rm in memory and the old value in Rd (R325, R326). -/
def State.Swapped (s : State) (r : Result State) (rd rm : RegNum) (ea : Word) (w : Width) (old : Word) : Prop :=
  ∃ t, r = .next t ∧ t.readReg rd = old ∧ s.Wrote t ea w (s.readReg rm) ∧ t.cpsr = s.cpsr ∧
    s.Frame t [rd] ∧ s.Advanced t .seq (2 * s.params.cost ea w .data .nonSeq + 1) ∧ t.draws = s.draws

theorem State.swapped_swap {s : State} {c : Cond} {rn rd sbz rm : RegNum} {ea : Word} {w : Width} {old old' : Word}
    {ks : List Check} (hold : old = old') (hc : c.passes s.cpsr = true) (hn : rn ≠ 15) (hd : rd ≠ 15) (hm : rm ≠ 15)
    (hks : firstStop s.params.unpred ks = none)
    (hl : s.Lenient (sbz = 0 ∧ rn ≠ rd ∧ rn ≠ rm ∧ s.hitsPrefetch ea w = false)) :
    s.Swapped (s.swap c rn rd sbz rm ea w old ks) rd rm ea w old' := by
  have hn' : rn ≠ 15#4 := hn
  have hd' : rd ≠ 15#4 := hd
  have hm' : rm ≠ 15#4 := hm
  have hregs : firstStop s.params.unpred [⟨.u5, false, sbz != 0⟩, ⟨.u23, true, rd == 15 || rn == 15 || rm == 15⟩,
      ⟨.u23, false, rn == rd || rn == rm⟩] = none :=
    hl.none (by simp [hn', hd', hm']) fun _ ⟨hsbz, hrd, hrm, _⟩ => by simpa [hn', hd', hm', hrd, hrm] using hsbz
  have hend : firstStop s.params.unpred [s.hazardCheck [rn, rd, rm], s.prefetchCheck ea w] = none :=
    hl.none (by simp) fun hz ⟨_, _, _, hp⟩ => by simp [State.hazardCheck_holds hz, hp]
  rw [State.swap, State.underCond_of_passes _ hc,
    State.guarded_of_none _ (firstStop_append_eq_none (firstStop_append_eq_none hregs hks) hend)]
  have hf : s.Frame (((s.chargeData ea w .nonSeq).memWrite ea w (s.readReg rm) .nonSeq).internal 1) [rd] :=
    (State.Frame.refl s [rd]).congr rfl rfl rfl rfl rfl rfl
  refine ⟨_, rfl, ?_, State.wrote_portStore ?_, by simp, (hf.writeReg rfl rd old (by simp)).fetchNext _,
    State.advanced_fetchNext _ (by simp) (by simp) (by simp) (by simp) ?_, by simp⟩
  · rw [State.readReg_fetchNext _ _ hd, State.readReg_writeReg_self _ _ hd, hold]
  · rw [State.fetchNext_mem, State.writeReg_mem]
    rfl
  · simp only [State.writeReg_cycles, State.internal_cycles, State.memWrite_cycles, State.chargeData_cycles,
      State.chargeData_params]
    omega

/-- Settles O37: SWP and SWPB are one swap, of the rotated word or of the byte. -/
theorem swapExchanges : Obligations.SwapExchanges := by
  intro byte c rn rd sbz rm s w ea hc hn hd hm hl
  have hl' : s.Lenient (sbz = 0 ∧ rn ≠ rd ∧ rn ≠ rm ∧ s.hitsPrefetch ea w = false) :=
    hl.imp fun ⟨hsbz, hrd, hrm, _, hp⟩ => ⟨hsbz, hrd, hrm, hp⟩
  cases byte with
  | true => exact State.swapped_swap rfl hc hn hd hm rfl hl'
  | false =>
    have hks : firstStop s.params.unpred [⟨.u13, false, misaligned4 (s.readReg rn)⟩] = none :=
      hl.none (by simp) fun _ ⟨_, _, _, h, _⟩ => by simpa using h
    exact State.swapped_swap (s.loadWordRotated_eq _) hc hn hd hm hks hl'

/-! ## Stops of the spec's own (R329, R503, R400) -/

theorem State.reservedHalfword_stops {s : State} {c : Cond} (hc : c.passes s.cpsr = true) :
    s.reservedHalfword c = .fault (.unpredictable .u22 s.instrAddr) := State.underCond_of_passes _ hc

theorem State.coprocessor_diagnostic {s : State} {c : Cond} (hc : c.passes s.cpsr = true)
    (h : s.params.coproc = .diagnostic) : s.coprocessor c = .fault (.coprocessorUnimplemented s.instrAddr) := by
  rw [State.coprocessor, State.underCond_of_passes _ hc, h]

/-- Settles O48: the reserved encodings stop once their condition passes, BX with H1 = 1 always, and a coprocessor
instruction by the diagnostic policy. -/
theorem specStops : Obligations.SpecStops := by
  refine ⟨fun c p u w rn rd hi lo s hc => ?_, fun _ _ _ _ => rfl, fun i s hi hc hp => ?_⟩
  · have h := State.reservedHalfword_stops hc
    exact ⟨h, h, h, h⟩
  · obtain ⟨c, hcond, hexec⟩ := exec_coprocessor hi s
    rw [hexec, State.coprocessor_diagnostic (hc c hcond) hp]

end Sys2Proof.Machine

/-! # Block transfers (44_arm_block_transfer.md) -/

namespace Sys2Proof.Machine

/-! ## Register lists and addresses (R350) -/

theorem listRegs_pairwise (rl : BitVec 16) : (listRegs rl).Pairwise fun r r' => r.toNat < r'.toNat :=
  List.Pairwise.filter _ (by decide)

theorem blockRegs_of_ne {rl : BitVec 16} (h : rl ≠ 0) : blockRegs rl = listRegs rl := if_neg h

theorem withPc_ne_zero (rl : BitVec 15) : withPc rl ≠ 0 := by
  intro h
  have hm : (withPc rl).msb = true := BitVec.msb_append (x := 1#1) (y := rl)
  simp [h] at hm

theorem setWidth_ne_zero {rl : BitVec 15} (h : rl ≠ 0) : rl.setWidth 16 ≠ 0 := fun e =>
  h (by simpa using congrArg (BitVec.setWidth 15) e)

theorem mem_blockRegs_of_getLsbD {rl : BitVec 16} {r : RegNum} (h : rl.getLsbD r.toNat = true) :
    r ∈ blockRegs rl := by
  have h0 : rl ≠ 0 := by
    rintro rfl
    simp at h
  rw [blockRegs_of_ne h0]
  exact (mem_listRegs rl r).2 h

/-- Each address of a transfer is presented as one of the k-th addresses. -/
theorem mem_blockAddrs {n : Nat} {start a : Word} (h : a ∈ blockAddrs n start) :
    ∃ k, k < n ∧ alignTo .word a = blockAddr start k := by
  induction n generalizing start with
  | zero => simp [blockAddrs] at h
  | succ n ih =>
    rw [blockAddrs, List.mem_cons] at h
    obtain rfl | h := h
    · exact ⟨0, n.succ_pos, (blockAddr_zero _).symm⟩
    · obtain ⟨k, hk, e⟩ := ih h
      exact ⟨k + 1, by omega, e.trans (blockAddr_succ _ _)⟩

/-! ## Past the U-cases -/

section
variable {s : State} {m : BlockMode} {rn : RegNum} {rl : BitVec 16}

theorem State.blockChecks_none (hn : rn ≠ 15) (hl : s.Lenient (misaligned4 (s.readReg rn) = false ∧ rl ≠ 0)) :
    firstStop s.params.unpred (s.blockChecks rn rl) = none := by
  have hn' : rn ≠ 15#4 := hn
  exact hl.none (by simp [State.blockChecks, hn']) fun _ ⟨ha, h0⟩ => by simpa [State.blockChecks, hn', ha] using h0

theorem State.userBankChecks_none (hl : s.Lenient (s.hasSpsr = true)) :
    firstStop s.params.unpred (s.userBankChecks false) = none :=
  hl.none (by simp [State.userBankChecks]) fun _ hs => by simp [State.userBankChecks, hs]

/-- U26 does not arise where no word of the store meets the two next opcodes (R97). -/
theorem State.blockPrefetchCheck_holds
    (h : ∀ k, k < (blockRegs rl).length → s.hitsPrefetch (blockAddr (s.blockStart m rn rl) k) .word = false) :
    (s.blockPrefetchCheck m rn rl).holds = false := by
  refine List.any_eq_false.2 fun t ht => ?_
  obtain ⟨k, hk, e⟩ := mem_blockAddrs (List.of_mem_zip (a := t.1) (b := t.2) ht).2
  simp [e, h k hk]

/-- The U-cases of the accesses a block store makes do not arise (R97, R354). -/
theorem State.blockStoreChecks_none (rs : List RegNum)
    (hl : s.Lenient (∀ k, k < (blockRegs rl).length →
      s.hitsPrefetch (blockAddr (s.blockStart m rn rl) k) .word = false)) :
    firstStop s.params.unpred [s.hazardCheck rs, s.blockPrefetchCheck m rn rl] = none :=
  hl.none (by simp [State.blockPrefetchCheck]) fun hz hq => by
    simp [State.hazardCheck_holds hz, State.blockPrefetchCheck_holds hq]

/-- The U-cases of a load of the current registers do not arise (R350, R352, R359). -/
theorem State.blockLoadChecks_none {w : Bool} (rs : List RegNum) (hn : rn ≠ 15)
    (hl : s.Lenient (misaligned4 (s.readReg rn) = false ∧ rl ≠ 0 ∧ (w = true → rn ∉ blockRegs rl))) :
    firstStop s.params.unpred (s.blockChecks rn rl ++ [baseInList w rn rl, s.hazardCheck rs]) = none := by
  refine firstStop_append_eq_none (State.blockChecks_none hn (hl.imp fun ⟨ha, h0, _⟩ => ⟨ha, h0⟩))
    (hl.none (by simp [baseInList]) fun hz ⟨_, _, hb⟩ => ?_)
  have hbit : w = true → rl.getLsbD rn.toNat = false := fun hw =>
    Bool.eq_false_iff.2 fun h => hb hw (mem_blockRegs_of_getLsbD h)
  simpa [State.hazardCheck_holds hz, baseInList] using hbit

end

/-! ## Stores (R351, R353) -/

@[simp] theorem State.blockStore_cpsr (s : State) (b : Bank) (m : BlockMode) (w : Bool) (rn : RegNum)
    (rl : BitVec 16) : (s.blockStore b m w rn rl).cpsr = s.cpsr := (State.SameCore.storeList _ s _ _ _).cpsr

@[simp] theorem State.blockStore_draws (s : State) (b : Bank) (m : BlockMode) (w : Bool) (rn : RegNum)
    (rl : BitVec 16) : (s.blockStore b m w rn rl).draws = s.draws := (State.SameCore.storeList _ s _ _ _).draws

/-- R15 is stored as A + STORE_PC_OFFSET also after the base write-back (R353). -/
theorem State.blockBase_storedPc (s : State) (wb : Option (RegNum × Word)) :
    (s.blockBase wb).storedPc = s.storedPc := by
  have c := State.SameCore.blockBase s wb
  simp [State.storedPc, State.instrAddr, c.pc, c.cpsr, c.params]

/-- A register of the current mode after the base write-back (R351). -/
theorem State.readBank_blockBase (s : State) (m : BlockMode) (w : Bool) {rn : RegNum} (rl : BitVec 16) (r : RegNum)
    (hn : rn ≠ 15) : (s.blockBase (s.blockWb m w rn rl)).readBank s.bank r =
      if w = true ∧ r = rn then m.newBase (s.readReg rn) (blockSpan rl) else s.readReg r := by
  cases w
  · rfl
  · show (s.writeBank s.bank rn _).readBank s.bank r = _
    rw [State.readBank_writeBank]
    simp only [hn, ne_eq, not_false_eq_true, and_true, true_and]
    rfl

/-- The value a register other than the first of the list stores (R351, R353, R357). -/
theorem State.blockBase_blockValue (s : State) (m : BlockMode) (w : Bool) {rn : RegNum} (rl : BitVec 16) (r : RegNum)
    (hn : rn ≠ 15) : (s.blockBase (s.blockWb m w rn rl)).blockValue s.bank r =
      if r = 15 then s.storedPc
      else if w = true ∧ r = rn then m.newBase (s.readReg rn) (blockSpan rl) else s.readReg r := by
  rw [State.blockValue, State.blockBase_storedPc, State.readBank_blockBase _ _ _ _ _ hn]

/-- A block store whose U-cases do not stop it goes on. -/
theorem State.stm_of_lenient {s : State} {c : Cond} {m : BlockMode} (w : Bool) {rn : RegNum} {rl : BitVec 16}
    (hc : c.passes s.cpsr = true) (hn : rn ≠ 15)
    (hl : s.Lenient (misaligned4 (s.readReg rn) = false ∧ rl ≠ 0 ∧ ∀ k, k < (blockRegs rl).length →
      s.hitsPrefetch (blockAddr (s.blockStart m rn rl) k) .word = false)) :
    s.stm c m w rn rl = .next (s.blockStore s.bank m w rn rl) := by
  have hb := State.blockChecks_none (rl := rl) hn (hl.imp fun ⟨ha, h0, _⟩ => ⟨ha, h0⟩)
  have hp := State.blockStoreChecks_none (rn :: blockRegs rl) (hl.imp fun ⟨_, _, hq⟩ => hq)
  rw [State.stm, State.underCond_of_passes _ hc, State.guarded_of_none _ (firstStop_append_eq_none hb hp)]

theorem State.stmUser_of_lenient {s : State} {c : Cond} {m : BlockMode} {rn : RegNum} {rl : BitVec 16}
    (hc : c.passes s.cpsr = true) (hn : rn ≠ 15)
    (hl : s.Lenient ((misaligned4 (s.readReg rn) = false ∧ rl ≠ 0 ∧ ∀ k, k < (blockRegs rl).length →
      s.hitsPrefetch (blockAddr (s.blockStart m rn rl) k) .word = false) ∧ s.hasSpsr = true)) :
    s.stmUser c m false rn rl = .next (s.blockStore .usr m false rn rl) := by
  have hb := State.blockChecks_none (rl := rl) hn (hl.imp fun ⟨⟨ha, h0, _⟩, _⟩ => ⟨ha, h0⟩)
  have hu := State.userBankChecks_none (hl.imp fun ⟨_, hs⟩ => hs)
  have hp := State.blockStoreChecks_none [rn] (hl.imp fun ⟨⟨_, _, hq⟩, _⟩ => hq)
  rw [State.stmUser, State.underCond_of_passes _ hc,
    State.guarded_of_none _ (firstStop_append_eq_none (firstStop_append_eq_none hb hu) hp)]

/-- Settles O38: the readings of R350, then both forms as one block store, of the current and of the User bank. -/
theorem storeMultiple : Obligations.StoreMultiple := by
  refine ⟨fun b span rl =>
    ⟨rfl, rfl, rfl, rfl, rfl, rfl, rfl, rfl, rfl, rfl, mem_listRegs rl, listRegs_pairwise rl⟩, ?_⟩
  intro c m w rn rl s start newBase rs pcWord quiet hc hn
  refine ⟨fun hl => ?_, fun hl => ?_⟩
  · refine ⟨_, (exec_stm ..).trans (State.stm_of_lenient w hc hn hl), s.blockStore_stored _ m w rn rl _ ?_, ?_,
      by simp, s.blockStore_frame _ m w rn rl _ ?_, s.blockStore_advanced .., by simp⟩
    · intro k r _
      by_cases hk : k = 0
      · simp only [hk, ne_eq, not_true_eq_false, and_false, if_false, if_true]
        rfl
      · simp only [hk, ne_eq, not_false_eq_true, and_true, if_false, s.blockBase_blockValue m w rl r hn]
        rfl
    · rintro rfl -
      exact s.blockStore_base _ m rn rl hn
    · simp +contextual
  · refine ⟨_, (exec_stmUser ..).trans (State.stmUser_of_lenient hc hn hl), s.blockStore_stored _ m false rn rl _ ?_,
      by simp, s.blockStore_frame _ m false rn rl _ (by simp), s.blockStore_advanced .., by simp⟩
    intro k r _
    exact (ite_self _).symm

/-! ## Loads (R352, R354, R355) -/

theorem State.BlockLoaded.congr {s t u : State} {b : Bank} {start : Word} {rs : List RegNum}
    (h : s.BlockLoaded t b start rs) (hr : u.regs = t.regs) : s.BlockLoaded u b start rs := fun k r hk h15 =>
  (State.readBank_congr hr b h15).trans (h k r hk h15)

theorem State.BaseWritten.congr {s t u : State} {w : Bool} {rn : RegNum} {rs : List RegNum} {x : Word}
    (h : s.BaseWritten t w rn rs x) (hn : rn ≠ 15) (hr : u.regs = t.regs) : s.BaseWritten u w rn rs x :=
  fun hw hm => (State.readBank_congr hr s.bank hn).trans (h hw hm)

/-- What a block load of the current bank leaves, in a state that differs in the pipeline, CPSR and cycles alone. -/
theorem State.blockLoad_leaves {s t : State} {m : BlockMode} {w : Bool} {rn : RegNum} {rl : BitVec 16} (hn : rn ≠ 15)
    (hr : t.regs = (s.blockLoad s.bank m w rn rl).regs) (hs : t.spsrs = (s.blockLoad s.bank m w rn rl).spsrs)
    (hp : t.params = (s.blockLoad s.bank m w rn rl).params) (hh : t.hook = (s.blockLoad s.bank m w rn rl).hook)
    (hf : t.faultRecord = (s.blockLoad s.bank m w rn rl).faultRecord)
    (hc : t.totalCycles = (s.blockLoad s.bank m w rn rl).totalCycles)
    (hm : t.mem = (s.blockLoad s.bank m w rn rl).mem) :
    s.BlockLoaded t s.bank (s.blockStart m rn rl) (blockRegs rl) ∧
    s.BaseWritten t w rn (blockRegs rl) (m.newBase (s.readReg rn) (blockSpan rl)) ∧
    s.Frame t (if w = true then rn :: blockRegs rl else blockRegs rl) ∧ s.MemKept t := by
  have hframe := s.blockLoad_frame m w rn rl (if w = true then rn :: blockRegs rl else blockRegs rl)
    (by simp +contextual) (by split <;> simp +contextual)
  exact ⟨(s.blockLoad_loaded s.bank m w rn rl).congr hr, (s.blockLoad_base m w rn rl hn).congr hn hr,
    hframe.congr hr hs hp hh hf hc, fun x => by rw [hm, State.blockLoad_mem]⟩

/-- A block load and the next fetch (R352). -/
theorem State.blockLoad_advanced (s : State) (b : Bank) (m : BlockMode) (w : Bool) (rn : RegNum) (rl : BitVec 16) :
    s.Advanced ((s.blockLoad b m w rn rl).fetchNext .seq) .seq
      (s.blockCost (s.blockStart m rn rl) .nonSeq (blockRegs rl).length + 1) :=
  have c := s.blockLoad_core b m w rn rl
  State.advanced_fetchNext _ c.pc (congrArg Psr.t c.cpsr) c.decoded c.params (s.blockLoad_cycles ..)

/-- A block load and a branch, in whatever instruction-set state (R352, R355). -/
theorem State.blockLoad_branched (s : State) (b : Bank) (m : BlockMode) (w : Bool) (rn : RegNum) (rl : BitVec 16)
    (p : Psr) (x : Word) :
    s.Branched ({ s.blockLoad b m w rn rl with cpsr := p }.branchTo x) x
      (s.blockCost (s.blockStart m rn rl) .nonSeq (blockRegs rl).length + 1) :=
  have c := s.blockLoad_core b m w rn rl
  State.branched_branchTo x c.pc c.params (s.blockLoad_cycles ..)

theorem State.ldm_of_lenient {s : State} {c : Cond} {m : BlockMode} {w : Bool} {rn : RegNum} {rl : BitVec 16}
    (hc : c.passes s.cpsr = true) (hn : rn ≠ 15)
    (hl : s.Lenient (misaligned4 (s.readReg rn) = false ∧ rl ≠ 0 ∧ (w = true → rn ∉ blockRegs rl))) :
    s.ldm c m w rn rl =
      if 15 ∈ blockRegs rl then s.writePc (s.blockLoad s.bank m w rn rl) (s.blockPc rl (s.blockStart m rn rl))
      else .next ((s.blockLoad s.bank m w rn rl).fetchNext .seq) := by
  rw [State.ldm, State.underCond_of_passes _ hc, State.guarded_of_none _ (State.blockLoadChecks_none _ hn hl)]
  simp only [List.contains_iff_mem]

/-- Settles O39: past its U-cases the load ends with the next fetch, or with the branch where R15 is in the list. -/
theorem loadMultiple : Obligations.LoadMultiple := by
  intro c m w rn rl s start newBase rs pcWord hc hn hl
  have hldm := State.ldm_of_lenient (m := m) hc hn (hl.imp fun ⟨ha, h0, hb, _⟩ => ⟨ha, h0, hb⟩)
  have hcore := s.blockLoad_core s.bank m w rn rl
  rw [exec_ldm, hldm]
  by_cases h15 : 15 ∈ blockRegs rl
  · obtain ⟨hloaded, hbase, hframe, hmem⟩ := State.blockLoad_leaves (m := m) (w := w) (rl := rl)
      (t := (s.blockLoad s.bank m w rn rl).branchTo pcWord) hn rfl rfl rfl rfl rfl rfl rfl
    rw [if_pos h15]
    exact ⟨_, State.writePc_of_lenient _ (hl.imp fun ⟨_, _, _, hp⟩ => hp h15), hloaded, hbase, hcore.cpsr, hframe,
      hmem, hcore.draws, fun h => absurd h15 h, fun _ => s.blockLoad_branched s.bank m w rn rl _ pcWord⟩
  · obtain ⟨hloaded, hbase, hframe, hmem⟩ := State.blockLoad_leaves (m := m) (w := w) (rl := rl)
      (t := (s.blockLoad s.bank m w rn rl).fetchNext .seq) hn rfl rfl rfl rfl rfl rfl rfl
    rw [if_neg h15]
    exact ⟨_, rfl, hloaded, hbase, hcore.cpsr, hframe, hmem, hcore.draws, fun _ => s.blockLoad_advanced ..,
      fun h => absurd h h15⟩

/-- Settles O41: past its U-cases the load restores CPSR and branches in the restored state. -/
theorem loadMultipleReturn : Obligations.LoadMultipleReturn := by
  intro c m w rn rl s rs span start pcWord saved hc hn hs hm hl
  have hrs : blockRegs (withPc rl) = rs := blockRegs_of_ne (withPc_ne_zero rl)
  have hpc : s.blockPc (withPc rl) start = pcWord := by
    rw [State.blockPc, hrs]
    rfl
  have hret : s.ldmRet c m w rn rl =
      .next ({ s.blockLoad s.bank m w rn (withPc rl) with cpsr := saved }.branchTo pcWord) := by
    rw [State.ldmRet, State.underCond_of_passes _ hc, State.guarded_of_none _ (State.blockLoadChecks_none _ hn
      (hl.imp fun ⟨ha, hb, _⟩ => ⟨ha, withPc_ne_zero rl, hrs ▸ hb⟩)), ← hpc]
    exact State.exceptionReturn_of_lenient _ hs hm (hl.imp fun ⟨_, _, hp⟩ => hpc ▸ hp)
  obtain ⟨hloaded, hbase, hframe, hmem⟩ := State.blockLoad_leaves (m := m) (w := w) (rl := withPc rl)
    (t := { s.blockLoad s.bank m w rn (withPc rl) with cpsr := saved }.branchTo pcWord) hn rfl rfl rfl rfl rfl rfl rfl
  have hbr := s.blockLoad_branched s.bank m w rn (withPc rl) saved pcWord
  rw [hrs] at hloaded hbase hframe hbr
  rw [exec_ldmRet, hret]
  exact ⟨_, rfl, hloaded, hbase, rfl, hframe, hmem, (s.blockLoad_core ..).draws, hbr⟩

/-! ## Loads of the User registers (R354) -/

theorem State.ldmUser_of_lenient {s : State} {c : Cond} {m : BlockMode} {rn : RegNum} {rl : BitVec 15}
    (hc : c.passes s.cpsr = true) (hn : rn ≠ 15)
    (hl : s.Lenient (misaligned4 (s.readReg rn) = false ∧ rl.setWidth 16 ≠ 0 ∧ s.hasSpsr = true)) :
    s.ldmUser c m false rn rl =
      if rl = 0 then s.writePc (s.blockLoad .usr m false rn (rl.setWidth 16))
        (s.blockPc (rl.setWidth 16) (s.blockStart m rn (rl.setWidth 16)))
      else .next { (s.blockLoad .usr m false rn (rl.setWidth 16)).fetchNext .seq with userBankHazard := true } := by
  have hb := State.blockChecks_none (rl := rl.setWidth 16) hn (hl.imp fun ⟨ha, h0, _⟩ => ⟨ha, h0⟩)
  have hu := State.userBankChecks_none (hl.imp fun ⟨_, _, hs⟩ => hs)
  have hz : firstStop s.params.unpred [s.hazardCheck [rn]] = none :=
    hl.none (by simp) fun hz _ => by simp [State.hazardCheck_holds hz]
  rw [State.ldmUser, State.underCond_of_passes _ hc,
    State.guarded_of_none _ (firstStop_append_eq_none (firstStop_append_eq_none hb hu) hz)]

/-- A load of the User registers keeps every physical register the list does not name there (R354). -/
theorem State.blockLoad_user_other (s : State) (m : BlockMode) (rn : RegNum) (rl : BitVec 16) (p : PhysReg)
    (h : ∀ r ∈ blockRegs rl, Bank.usr.reg r ≠ some p) :
    (s.blockLoad .usr m false rn rl).regs.get p = s.regs.get p := s.blockLoad_other .usr m false rn rl p h

/-- The empty list loads R15 alone, which is no physical register (R350). -/
theorem State.blockLoad_user_empty_frame (s : State) (m : BlockMode) (rn : RegNum) :
    s.Frame (s.blockLoad .usr m false rn 0) [] :=
  have c := s.blockLoad_core .usr m false rn 0
  ⟨fun p _ => s.blockLoad_user_other m rn 0 p (by simp [blockRegs, (Bank.reg_eq_none _ _).2]), c.spsrs, c.params,
    c.hook, c.record, c.total⟩

/-- Settles O40: a block load of the User bank that ends with the fetch and the marker of U27, or for the empty list
with the branch to its one word. -/
theorem loadMultipleUser : Obligations.LoadMultipleUser := by
  intro c m rn rl s rs start hc hn
  have hcore := s.blockLoad_core .usr m false rn (rl.setWidth 16)
  refine ⟨fun h0 hl => ?_, fun h0 hp => ?_⟩
  · have h16 := setWidth_ne_zero h0
    have hrs : blockRegs (rl.setWidth 16) = rs := blockRegs_of_ne h16
    have hloaded := s.blockLoad_loaded .usr m false rn (rl.setWidth 16)
    have hother := s.blockLoad_user_other m rn (rl.setWidth 16)
    have hadv := s.blockLoad_advanced .usr m false rn (rl.setWidth 16)
    rw [hrs] at hloaded hother hadv
    obtain ⟨hpc, hdecoded, hfetched, hcycles⟩ := hadv
    rw [exec_ldmUser, State.ldmUser_of_lenient hc hn (hl.imp fun ⟨ha, hs⟩ => ⟨ha, h16, hs⟩), if_neg h0]
    exact ⟨_, rfl, hloaded.congr rfl, hother, rfl, hcore.cpsr, hcore.spsrs,
      fun x => congrArg (Mem.byteAt · x) (by simp), hcore.draws, hpc, hdecoded, hfetched, hcycles⟩
  · subst h0
    rw [exec_ldmUser, State.ldmUser_of_lenient hc hn (.inl hp), if_pos rfl, State.writePc_of_lenient _ (.inl hp)]
    exact State.branches_branchTo (by simp) (s.blockLoad_user_empty_frame m rn) hcore.cpsr hcore.pc
      (s.blockLoad_cycles ..) (by simp) hcore.draws

end Sys2Proof.Machine

/-! # Multiply (45_arm_multiply.md) -/

namespace Sys2Proof.Machine

/-! ## The multiplier cycle count (R370) -/

theorem uniform_iff {n : Nat} (x : BitVec n) : uniform x = true ↔ x.toNat = 0 ∨ x.toNat = 2 ^ n - 1 := by
  simp [uniform, ← BitVec.toNat_inj]

/-- The bits of a word from `n` up are all equal where the word is a sign-extended number of `n + 1` bits. -/
theorem uniform_top_iff (x : Word) {n k : Nat} (h : n + k = 32) :
    uniform (x.extractLsb' n k) = true ↔ -(2 ^ n) ≤ x.toInt ∧ x.toInt < 2 ^ n := by
  have hx := x.isLt
  have hprod : 2 ^ k * 2 ^ n = 2 ^ 32 := by rw [← pow_add, Nat.add_comm, h]
  have hpos : 0 < 2 ^ n := by positivity
  have hcast : ((2 ^ n : Nat) : Int) = 2 ^ n := by simp
  have htop : x.toNat / 2 ^ n < 2 ^ k := Nat.div_lt_of_lt_mul (by rwa [Nat.mul_comm, hprod])
  have hzero : x.toNat / 2 ^ n = 0 ↔ x.toNat < 2 ^ n := Nat.div_eq_zero_iff_lt hpos
  have hones : 2 ^ k - 1 ≤ x.toNat / 2 ^ n ↔ 2 ^ 32 - 2 ^ n ≤ x.toNat := by
    rw [Nat.le_div_iff_mul_le hpos, Nat.sub_mul, hprod, Nat.one_mul]
  rw [uniform_iff, BitVec.extractLsb'_toNat, Nat.shiftRight_eq_div_pow, Nat.mod_eq_of_lt htop, hzero,
    BitVec.toInt_eq_toNat_cond]
  omega

/-- Settles O22: the three tests of the count are the three ranges, each within the next. -/
theorem multiplierCycles : Obligations.MultiplierCycles := by
  intro x
  have h8 := uniform_top_iff x (n := 8) (k := 24) rfl
  have h16 := uniform_top_iff x (n := 16) (k := 16) rfl
  have h24 := uniform_top_iff x (n := 24) (k := 8) rfl
  simp only [mulCycles, h8, h16, h24]
  split_ifs <;> omega

/-! ## Products of 32 bits (R371, R372) -/

theorem Psr.withFlags_eq_flagged (p : Psr) (res : Word) (c v : Bool) : p.withFlags res c v = p.flagged res c v := by
  rw [Psr.withFlags, Psr.flagged, BitVec.msb_eq_getLsbD_last]
  rfl

/-- A multiply with a 32-bit result whose own U-cases `ks` do not stop it ends as an instruction that writes one
register, with the flags of R378. -/
theorem State.computes_multiply {s : State} {c : Cond} (hc : c.passes s.cpsr = true) {ks : List Check}
    {named : List RegNum} (sf : Bool) {rd rm : RegNum} (res : Word) (k : Nat) (hd : rd ≠ 15) (h15 : 15 ∉ named)
    (hks : firstStop s.params.unpred ks = none) (hl : s.Lenient (rd ≠ rm)) :
    s.Computes (s.multiply c ks named sf rd rm res k) [(rd, res)]
      (if sf = true then s.cpsr.flagged res ((Config.freeValue s.draws).getLsbD 0) s.cpsr.v else s.cpsr) k
      (if sf = true then 1 else 0) := by
  have h15 : 15#4 ∉ named := h15
  have hu6 : firstStop s.params.unpred
      [⟨.u6, true, named.contains 15⟩, ⟨.u6, false, rd == rm⟩, s.hazardCheck named] = none :=
    hl.none (by simp [h15]) fun hz hrm => by simp [h15, hrm, State.hazardCheck_holds hz]
  rw [State.multiply, State.underCond_of_passes _ hc, State.guarded_of_none _ (firstStop_append_eq_none hks hu6),
    ← Psr.withFlags_eq_flagged]
  cases sf with
  | false => exact s.computes_write s.cpsr k 0 rd res rfl rfl hd
  | true => exact s.computes_write (s.cpsr.withFlags res (s.drawn.getLsbD 0) s.cpsr.v) k 1 rd res rfl rfl hd

/-- Settles O30: MUL and MLA are one multiply, of the product and of the product plus Rn, whose words are those of the
natural numbers modulo 2^32. -/
theorem multiplyShort : Obligations.MultiplyShort := by
  intro c sf rd rn rs rm s hc hd hs hm flags prod
  have hprod : s.readReg rm * s.readReg rs = BitVec.ofNat 32 prod := by
    rw [BitVec.ofNat_mul, BitVec.ofNat_toNat, BitVec.ofNat_toNat, BitVec.setWidth_eq, BitVec.setWidth_eq]
  refine ⟨fun hl => ?_, fun hn hl => ?_⟩
  · have hsbz : firstStop s.params.unpred [⟨.u5, false, rn != 0⟩] = none :=
      hl.none (by simp) fun _ ⟨_, hz⟩ => by simpa using hz
    have h15 : 15 ∉ [rd, rs, rm] := by simpa using And.intro hd.symm ⟨hs.symm, hm.symm⟩
    rw [← hprod]
    exact State.computes_multiply hc sf _ _ hd h15 hsbz (hl.imp And.left)
  · have h15 : 15 ∉ [rd, rn, rs, rm] := by simpa using And.intro hd.symm ⟨hn.symm, hs.symm, hm.symm⟩
    rw [BitVec.ofNat_add, BitVec.ofNat_toNat, BitVec.setWidth_eq, ← hprod]
    exact State.computes_multiply hc sf _ _ hd h15 rfl hl

/-! ## Products of 64 bits (R373 to R376) -/

theorem unsignedProduct_eq (a b : Word) : unsignedProduct a b = BitVec.ofNat 64 (a.toNat * b.toNat) := by
  rw [BitVec.ofNat_mul, BitVec.ofNat_toNat, BitVec.ofNat_toNat, unsignedProduct]

theorem signedProduct_eq (a b : Word) : signedProduct a b = BitVec.ofInt 64 (a.toInt * b.toInt) := by
  rw [BitVec.ofInt_mul]
  rfl

theorem State.longAcc_eq (s : State) (rdHi rdLo : RegNum) :
    s.longAcc rdHi rdLo = BitVec.ofNat 64 (2 ^ 32 * (s.readReg rdHi).toNat + (s.readReg rdLo).toNat) := by
  have hhi := (s.readReg rdHi).isLt
  have hlo := (s.readReg rdLo).isLt
  apply BitVec.eq_of_toNat_eq
  rw [State.longAcc, BitVec.toNat_append, BitVec.toNat_ofNat, Nat.shiftLeft_eq, Nat.mul_comm,
    ← Nat.two_pow_add_eq_or_of_lt hlo]
  omega

/-- The accumulator of a long multiply as a number: UMULL and SMULL add nothing (R373 to R376). -/
def State.accValue (s : State) (acc : Bool) (rdHi rdLo : RegNum) : Nat :=
  if acc = true then 2 ^ 32 * (s.readReg rdHi).toNat + (s.readReg rdLo).toNat else 0

/-- The 64-bit result of a long multiply, from the exact product (R373 to R376). -/
def State.longResult (s : State) (signed acc : Bool) (rdHi rdLo rs rm : RegNum) : BitVec 64 :=
  if signed = true then
    BitVec.ofInt 64 ((s.readReg rm).toInt * (s.readReg rs).toInt + (s.accValue acc rdHi rdLo : Int))
  else BitVec.ofNat 64 ((s.readReg rm).toNat * (s.readReg rs).toNat + s.accValue acc rdHi rdLo)

theorem State.longResult_eq (s : State) (signed acc : Bool) (rdHi rdLo rs rm : RegNum) :
    s.longResult signed acc rdHi rdLo rs rm =
      (if signed = true then signedProduct (s.readReg rm) (s.readReg rs)
        else unsignedProduct (s.readReg rm) (s.readReg rs)) +
      (if acc = true then s.longAcc rdHi rdLo else 0) := by
  have hacc : (if acc = true then s.longAcc rdHi rdLo else 0) = BitVec.ofNat 64 (s.accValue acc rdHi rdLo) := by
    cases acc with
    | false => rfl
    | true => exact s.longAcc_eq rdHi rdLo
  rw [hacc, signedProduct_eq, unsignedProduct_eq]
  cases signed with
  | false => exact BitVec.ofNat_add ..
  | true => exact (BitVec.ofInt_add ..).trans (congrArg _ (BitVec.ofInt_natCast ..))

/-- The four long multiplies are one multiply (R373 to R376). -/
theorem exec_longMul (signed acc : Bool) (c : Cond) (sf : Bool) (rdHi rdLo rs rm : RegNum) (s : State) :
    exec (longMulInstr signed acc c sf rdHi rdLo rs rm) s =
      s.multiplyLong c sf rdHi rdLo rs rm (s.longResult signed acc rdHi rdLo rs rm)
        (mulCycles (s.readReg rs) + if acc = true then 2 else 1) := by
  rw [State.longResult_eq]
  cases acc with
  | false =>
    rw [if_neg Bool.false_ne_true, if_neg Bool.false_ne_true, add_zero]
    cases signed <;> rfl
  | true => cases signed <;> rfl

/-- The status register after a long multiply with S = 1 (R378). -/
def Psr.longFlagged (p : Psr) (res : BitVec 64) (c v : Bool) : Psr :=
  { p with n := res.getLsbD 63, z := decide (res = 0), c := c, v := v }

theorem State.setLongMulFlags_internal (s : State) (res : BitVec 64) (k : Nat) :
    (s.internal k).setLongMulFlags res = s.tuned (s.cpsr.longFlagged res ((Config.freeValue s.draws).getLsbD 0)
      ((Config.freeValue (s.draws + 1)).getLsbD 0)) k 2 := by
  rw [State.setLongMulFlags, BitVec.msb_eq_getLsbD_last]
  rfl

/-- The end of an instruction that writes two registers, first `r`, then `r'`. -/
theorem State.computes_write_two (s : State) (p : Psr) (k d : Nat) {r r' : RegNum} (v v' : Word)
    (hm : p.m = s.cpsr.m) (ht : p.t = s.cpsr.t) (hr : r ≠ 15) (hr' : r' ≠ 15) (hne : r' ≠ r) :
    s.Computes (.next ((((s.tuned p k d).writeReg r v).writeReg r' v').fetchNext .seq)) [(r, v), (r', v')] p k d := by
  have hbank : (s.tuned p k d).bank = s.bank := State.bank_eq hm
  have hframe : s.Frame ((s.tuned p k d).writeReg r v) [r, r'] :=
    (State.Frame.tuned s _ p k d).writeReg hbank r v (by simp)
  refine State.computes_fetchNext ?_ (hframe.writeReg ((State.bank_eq (by simp)).trans hbank) r' v' (by simp))
    ?_ ?_ ht ?_ ?_ ?_ ?_
  · simp only [List.mem_cons, List.not_mem_nil, or_false, forall_eq_or_imp, forall_eq]
    exact ⟨⟨hr, by rw [State.readReg_writeReg_ne _ _ hne.symm, State.readReg_writeReg_self _ _ hr]⟩,
      hr', State.readReg_writeReg_self _ _ hr'⟩
  all_goals simp [State.tuned]

/-- A long multiply in a lenient state ends as an instruction that writes two registers, with the flags of R378. -/
theorem State.computes_multiplyLong {s : State} {c : Cond} (hc : c.passes s.cpsr = true) (sf : Bool)
    {rdHi rdLo rs rm : RegNum} (res : BitVec 64) (k : Nat) (h15 : 15 ∉ [rdHi, rdLo, rs, rm]) (hne : rdHi ≠ rdLo)
    (hl : s.Lenient (rdHi ≠ rm ∧ rdLo ≠ rm)) :
    s.Computes (s.multiplyLong c sf rdHi rdLo rs rm res k)
      [(rdLo, res.extractLsb' 0 32), (rdHi, res.extractLsb' 32 32)]
      (if sf = true then s.cpsr.longFlagged res ((Config.freeValue s.draws).getLsbD 0)
        ((Config.freeValue (s.draws + 1)).getLsbD 0) else s.cpsr) k (if sf = true then 2 else 0) := by
  have hhi : rdHi ≠ 15 := fun e => h15 (by simp [e])
  have hlo : rdLo ≠ 15 := fun e => h15 (by simp [e])
  have hu6 : firstStop s.params.unpred
      [⟨.u6, true, [rdHi, rdLo, rs, rm].contains 15⟩, ⟨.u6, true, rdHi == rdLo⟩,
        ⟨.u6, false, rdHi == rm || rdLo == rm⟩, s.hazardCheck [rdHi, rdLo, rs, rm]] = none := by
    have hnamed : [rdHi, rdLo, rs, rm].contains 15 = false := by
      rwa [← Bool.not_eq_true, List.contains_iff_mem]
    rw [hnamed]
    exact hl.none (by simp [hne]) fun hz ⟨hhm, hlm⟩ => by simp [hne, hhm, hlm, State.hazardCheck_holds hz]
  rw [State.multiplyLong, State.underCond_of_passes _ hc, State.guarded_of_none _ hu6]
  cases sf with
  | false => exact s.computes_write_two s.cpsr k 0 _ _ rfl rfl hlo hhi hne
  | true =>
    rw [if_pos rfl, State.setLongMulFlags_internal]
    exact s.computes_write_two _ k 2 _ _ rfl rfl hlo hhi hne

/-- Settles O31: the four long multiplies are one multiply of their 64-bit result. -/
theorem multiplyLong : Obligations.MultiplyLong := by
  intro signed acc c sf rdHi rdLo rs rm s hc hhi hlo hs hm hne hl a res
  have h15 : 15 ∉ [rdHi, rdLo, rs, rm] := by simpa using And.intro hhi.symm ⟨hlo.symm, hs.symm, hm.symm⟩
  rw [exec_longMul]
  exact State.computes_multiplyLong hc sf _ _ h15 hne hl

end Sys2Proof.Machine

/-! # Branches, SWI and undefined instructions (46_arm_branch_system.md, 60_exceptions.md) -/

namespace Sys2Proof.Machine

/-! ## B and BL (R390, R391) -/

theorem State.readReg_fifteen (s : State) : s.readReg 15 = s.pc := rfl

/-- The offset of a branch counts words (R136). -/
theorem branchOffset24_eq (off : BitVec 24) : branchOffset24 off = BitVec.ofInt 32 (4 * off.toInt) :=
  congrArg (BitVec.ofInt 32) BitVec.toInt_append_zero

/-- The end of an instruction that links and branches (R391, R505). -/
theorem State.branches_link (s : State) (v x : Word) :
    s.Branches (.next ((s.writeReg 14 v).branchTo x)) x [(14, v)] s.cpsr 0 0 := by
  refine State.branches_branchTo (fun w hw _ => ?_) ((State.Frame.refl s _).writeReg rfl 14 v (by simp))
    (by simp) (by simp) (by simp) (by simp) (by simp)
  rw [List.mem_singleton.1 hw, ← s.writeReg_bank 14 v]
  exact State.readReg_writeReg_self s v (by decide)

/-- U27 does not stop an instruction in a lenient state (R354). -/
theorem State.hazardCheck_none {s : State} (hl : s.Lenient True) (rs : List RegNum) :
    firstStop s.params.unpred [s.hazardCheck rs] = none :=
  hl.none (by simp) fun hz _ => by simp [State.hazardCheck_holds hz]

/-- Settles O42: B branches from the state as it is, BL from the state with the link written. -/
theorem branchAndLink : Obligations.BranchAndLink := by
  intro c off s hc target
  have htarget : s.readReg 15 + branchOffset24 off = target := by rw [s.readReg_fifteen, branchOffset24_eq]
  refine ⟨?_, fun hl => ?_⟩
  · show s.Branches (s.branch c off) target [] s.cpsr 0 0
    rw [State.branch, State.underCond_of_passes _ hc, htarget]
    exact s.branches_tuned s.cpsr 0 0 target
  · show s.Branches (s.branchLink c off) target [(14, s.instrAddr + 4)] s.cpsr 0 0
    rw [State.branchLink, State.underCond_of_passes _ hc, State.guarded_of_none _ (State.hazardCheck_none hl _),
      htarget]
    exact s.branches_link _ target

/-! ## BX (R392, R503) -/

/-- BX of either instruction set past its U-cases: `wrong` says that its should-be bits are wrong. -/
theorem State.branches_exchange {s : State} {wrong : Bool} {rm : RegNum}
    (hl : s.Lenient (wrong = false ∧ ((s.readReg rm).getLsbD 0 = true ∨ (s.readReg rm).getLsbD 1 = false))) :
    s.Branches (s.guarded [⟨.u5, false, wrong⟩, s.hazardCheck [rm], bxCheck (s.readReg rm)]
        (.next (s.exchange (s.readReg rm))))
      (s.readReg rm) [] { s.cpsr with t := (s.readReg rm).getLsbD 0 } 0 0 := by
  have hnone : firstStop s.params.unpred [⟨.u5, false, wrong⟩, s.hazardCheck [rm], bxCheck (s.readReg rm)] =
      none := by
    refine hl.none (by simp [bxCheck]) fun hz ⟨hw, ht⟩ => ?_
    have hbx : (bxCheck (s.readReg rm)).holds = false := by
      rcases ht with h | h <;> simp only [bxCheck, h, Bool.not_true, Bool.false_and, Bool.and_false]
    simp [hw, State.hazardCheck_holds hz, hbx]
  rw [State.guarded_of_none _ hnone]
  exact s.branches_tuned { s.cpsr with t := (s.readReg rm).getLsbD 0 } 0 0 _

/-- Settles O43: the BX of each instruction set is the same exchange, in ARM state under its condition. -/
theorem branchExchange : Obligations.BranchExchange := by
  constructor
  · intro c sbo rm s hc t hl
    show s.Branches (s.branchExchange c sbo rm) _ _ _ _ _
    rw [State.branchExchange, State.underCond_of_passes _ hc]
    exact State.branches_exchange (hl.imp fun ⟨hsbo, ht⟩ => ⟨by simpa using hsbo, ht⟩)
  · intro h2 rs sbz s t hl
    exact State.branches_exchange (hl.imp fun ⟨hsbz, ht⟩ => ⟨by simpa using hsbz, ht⟩)

/-! ## The entry of an exception (R530) -/

theorem ExceptionKind.bank_ne_usr (k : ExceptionKind) : k.mode.bank ≠ .usr := by cases k <;> decide

section
variable (s : State) (k : ExceptionKind) (lr : Word)

/-- An entry writes R14 of the entered mode and no other register (R530). -/
theorem State.enterMode_get (p : PhysReg) :
    (s.enterMode k lr).regs.get p = if k.mode.bank.reg 14 = some p then lr else s.regs.get p := by
  refine (State.get_writeBank _ k.mode.bank 14 lr p).trans (congrArg (ite _ lr) ?_)
  split <;> rfl

/-- An entry writes the SPSR of the entered mode and no other: the old CPSR, at Reset a free value (R530, V2). -/
theorem State.enterMode_spsr (b : Bank) : (s.enterMode k lr).spsrs.get b =
    if b = k.mode.bank then (if k = .reset then Psr.ofWord s.drawn else s.cpsr) else s.spsrs.get b := by
  have hset (f : SpsrFile) (p : Psr) : (f.set k.mode.bank p).get b = if b = k.mode.bank then p else f.get b := by
    simp only [SpsrFile.get_set, ne_eq, k.bank_ne_usr, not_false_eq_true, and_true]
  refine (hset _ _).trans (congrArg (ite _ _) (congrArg (SpsrFile.get · b) ?_))
  by_cases hk : k = .reset <;> simp [hk]

@[simp] theorem State.enterMode_cpsr : (s.enterMode k lr).cpsr = { s.cpsr with
    m := k.mode.bits, t := false, i := k.forcesI || s.cpsr.i, f := k.forcesF || s.cpsr.f } := by
  by_cases hk : k = .reset <;> simp [State.enterMode, hk]

@[simp] theorem State.enterMode_pc : (s.enterMode k lr).pc = s.pc := by
  by_cases hk : k = .reset <;> simp [State.enterMode, hk]

@[simp] theorem State.enterMode_params : (s.enterMode k lr).params = s.params := by
  by_cases hk : k = .reset <;> simp [State.enterMode, hk]

@[simp] theorem State.enterMode_faultRecord : (s.enterMode k lr).faultRecord = s.faultRecord := by
  by_cases hk : k = .reset <;> simp [State.enterMode, hk]

@[simp] theorem State.enterMode_cycles : (s.enterMode k lr).cycles = s.cycles := by
  by_cases hk : k = .reset <;> simp [State.enterMode, hk]

@[simp] theorem State.enterMode_totalCycles : (s.enterMode k lr).totalCycles = s.totalCycles := by
  by_cases hk : k = .reset <;> simp [State.enterMode, hk]

@[simp] theorem State.enterMode_draws : (s.enterMode k lr).draws = s.draws + if k = .reset then 1 else 0 := by
  by_cases hk : k = .reset <;> simp [State.enterMode, hk]

/-- What an entry leaves before the refill (R530). -/
theorem State.entered_enterMode :
    s.Entered (s.enterMode k lr) k lr (if k = .reset then Psr.ofWord s.drawn else s.cpsr) where
  link p hp := by rw [s.enterMode_get, if_pos hp]
  regs p hp := by rw [s.enterMode_get, if_neg hp]
  saved := by rw [s.enterMode_spsr, if_pos rfl]
  spsrs b hb := by rw [s.enterMode_spsr, if_neg hb]
  cpsr := s.enterMode_cpsr k lr
  mem x := by rw [s.enterMode_mem]
  params := s.enterMode_params k lr
  hook := s.enterMode_hook k lr
  record := s.enterMode_faultRecord k lr

end

/-- What an entry leaves does not speak of the pipeline, the cycles and the free values of the state after it. -/
theorem State.Entered.congr {s t u : State} {k : ExceptionKind} {lr : Word} {saved : Psr} (h : s.Entered t k lr saved)
    (hr : u.regs = t.regs) (hs : u.spsrs = t.spsrs) (hc : u.cpsr = t.cpsr) (hm : u.mem = t.mem)
    (hp : u.params = t.params) (hh : u.hook = t.hook) (hf : u.faultRecord = t.faultRecord) :
    s.Entered u k lr saved where
  link := hr ▸ h.link
  regs := hr ▸ h.regs
  saved := hs ▸ h.saved
  spsrs := hs ▸ h.spsrs
  cpsr := hc.trans h.cpsr
  mem x := by rw [hm, h.mem x]
  params := hp.trans h.params
  hook := hh.trans h.hook
  record := hf.trans h.record

theorem State.entered_enterException (s : State) (k : ExceptionKind) (lr : Word) :
    s.Entered (s.enterException k lr) k lr (if k = .reset then Psr.ofWord s.drawn else s.cpsr) :=
  (s.entered_enterMode k lr).congr (u := s.enterException k lr) rfl rfl rfl rfl rfl rfl rfl

/-- Internal cycles before an entry change nothing it speaks of (R394). -/
theorem State.Entered.of_internal {s t : State} {n : Nat} {k : ExceptionKind} {lr : Word} {saved : Psr}
    (h : (s.internal n).Entered t k lr saved) : s.Entered t k lr saved :=
  ⟨h.link, h.regs, h.saved, h.spsrs, h.cpsr, h.mem, h.params, h.hook, h.record⟩

/-! ## Raising an exception inside a step (R533) -/

/-- U27 does not stop an entry in a lenient state (R354). -/
theorem State.entryHazardCheck_none {s : State} (hl : s.Lenient True) :
    firstStop s.params.unpred [s.entryHazardCheck] = none :=
  hl.none (by simp) fun hz _ => by simp [State.entryHazardCheck, hz]

theorem State.raise_of_noHook {s : State} (hh : s.hook = none) (hl : s.Lenient True) (k : ExceptionKind) (lr : Word) :
    s.raise k lr = .next (s.enterException k lr) := by
  simp only [State.raise, hh, State.guarded_of_none _ (State.entryHazardCheck_none hl)]

/-- A hook that consumes the exception leaves no entry, and so no U27 (R533, R535). -/
theorem State.raise_of_hook {s : State} {id : Nat} (hh : s.hook = some id) {k : ExceptionKind} {lr : Word}
    (hl : (Config.hookResult id k lr s).consumed = true ∨ s.Lenient True) :
    s.raise k lr = .next (if (Config.hookResult id k lr s).consumed = true
      then (s.afterHook (Config.hookResult id k lr s)).fetchNext .seq
      else (s.afterHook (Config.hookResult id k lr s)).enterException k lr) := by
  simp only [State.raise, hh]
  split
  · rfl
  · next hconsumed => rw [State.guarded_of_none _ (State.entryHazardCheck_none (hl.resolve_left hconsumed))]

/-- An exception other than Reset raised without a hook after `n` internal cycles: the entry, at the vector
(R530). -/
theorem State.raise_enters {s : State} (n : Nat) {k : ExceptionKind} (hk : k ≠ .reset) (lr : Word)
    (hh : s.hook = none) (hl : s.Lenient True) :
    ∃ t, (s.internal n).raise k lr = .next t ∧ s.Entered t k lr s.cpsr ∧ s.Branched t (s.vector k) n ∧
      t.draws = s.draws ∧ t.totalCycles = s.totalCycles := by
  have hentered := (s.internal n).entered_enterException k lr
  have hdraws := (s.internal n).enterMode_draws k lr
  rw [if_neg hk] at hentered hdraws
  exact ⟨_, State.raise_of_noHook (s := s.internal n) hh hl k lr, hentered.of_internal,
    State.branched_branchTo _ (State.enterMode_pc ..) (State.enterMode_params ..) (State.enterMode_cycles ..),
    hdraws, (s.internal n).enterMode_totalCycles k lr⟩

/-! ## SWI and undefined instructions (R393, R394, R400, R501, R506) -/

/-- A passing SWI of either instruction set raises its exception with the address of the next instruction. -/
theorem exec_swi_of_passes {i : Instr} {s : State} (hi : i.isSwi = true)
    (hc : ∀ c, i.cond? = some c → c.passes s.cpsr = true) : exec i s = s.raise .swi (s.instrAddr + s.opSize) := by
  rw [exec_swi hi, State.underCond?_of_passes _ hc, State.softwareInterrupt]

/-- A passing undefined encoding, or coprocessor instruction with no coprocessor to answer, traps after one internal
cycle. -/
theorem exec_trap_of_passes {i : Instr} {s : State}
    (hi : i.isUndefined = true ∨ (i.isCoprocessor = true ∧ s.params.coproc = .undefined))
    (hc : ∀ c, i.cond? = some c → c.passes s.cpsr = true) :
    exec i s = (s.internal 1).raise .undefined (s.instrAddr + s.opSize) := by
  rcases hi with hi | ⟨hi, hp⟩
  · rw [exec_undefined hi, State.underCond?_of_passes _ hc, State.undefinedTrap]
  · obtain ⟨c, hcond, hexec⟩ := exec_coprocessor hi s
    rw [hexec, State.coprocessor, State.underCond_of_passes _ (hc c hcond), hp, State.undefinedTrap]

/-- Settles O44: the SWI raises its exception at once, and the entry writes out as stated. -/
theorem softwareInterrupt : Obligations.SoftwareInterrupt := by
  intro i s hi hc hh hl
  obtain ⟨t, hraise, hentered, hbranched, hdraws, htotal⟩ :=
    State.raise_enters 0 (k := .swi) (by decide) (s.instrAddr + s.opSize) hh hl
  exact ⟨t, (exec_swi_of_passes hi hc).trans hraise, hentered, hentered.cpsr, hbranched, hdraws, htotal⟩

/-- Settles O45: the trap raises the Undefined exception after its internal cycle. -/
theorem undefinedTrap : Obligations.UndefinedTrap := by
  intro i s hi hc hh hl
  obtain ⟨t, hraise, hentered, hbranched, hdraws, htotal⟩ :=
    State.raise_enters 1 (k := .undefined) (by decide) (s.instrAddr + s.opSize) hh hl
  exact ⟨t, (exec_trap_of_passes hi hc).trans hraise, hentered, hentered.cpsr, hbranched, hdraws, htotal⟩

/-- Settles O46: both exceptions are raised as every one, and the hook is asked in the state that raises. -/
theorem hookAnswers : Obligations.HookAnswers := by
  intro i s id hc hh lr asks
  exact ⟨fun hi hl => (exec_swi_of_passes hi hc).trans (State.raise_of_hook hh hl),
    fun hi hl => (exec_trap_of_passes hi hc).trans (State.raise_of_hook (s := s.internal 1) hh hl)⟩

end Sys2Proof.Machine

/-! # THUMB data processing (47_thumb_alu.md) -/

namespace Sys2Proof.Machine

/-! ## Low registers and the ends of the operations -/

theorem LowReg.toReg_ne_fifteen (r : LowReg) : r.toReg ≠ 15 := by
  revert r
  decide

section
variable (s : State) (rd : LowReg) (res : Word)

/-- The end of an operation with a low destination. -/
theorem State.computes_putLow {p : Psr} (k d : Nat) (hm : p.m = s.cpsr.m) (ht : p.t = s.cpsr.t) :
    s.Computes ((s.tuned p k d).putLow rd res) [(rd.toReg, res)] p k d :=
  s.computes_write p k d rd.toReg res hm ht (LowReg.toReg_ne_fifteen rd)

/-- The end of an operation that sets flags and has a low destination. -/
theorem State.computes_putLow_flagged (c v : Bool) (k d : Nat) :
    s.Computes ((s.tuned (s.cpsr.withFlags res c v) k d).putLow rd res) [(rd.toReg, res)]
      (s.cpsr.flagged res c v) k d := by
  rw [← Psr.withFlags_eq_flagged]
  exact s.computes_putLow rd res k d rfl rfl

/-- N and Z alone (R418, R422, R423, R434, R436, R437). -/
theorem State.computes_thumbLogic : s.Computes (s.thumbLogic rd res) [(rd.toReg, res)]
    (s.cpsr.flagged res s.cpsr.c s.cpsr.v) 0 0 := s.computes_putLow_flagged rd res _ _ 0 0

end

/-! ## Shifts (R411 to R413, R424 to R426, R429) -/

section
variable (s : State) (k : ShiftKind) (rs rd : LowReg)

theorem State.computes_thumbShiftImm (off : BitVec 5) :
    let o := shiftImm k (s.low rs) off s.cpsr.c
    s.Computes (s.thumbShiftImm k off rs rd) [(rd.toReg, o.res)] (s.cpsr.flagged o.res o.c s.cpsr.v) 0 0 :=
  s.computes_putLow_flagged rd _ _ _ 0 0

theorem State.computes_thumbShiftReg :
    let o := shiftReg k (s.low rd) ((s.low rs).extractLsb' 0 8) s.cpsr.c
    s.Computes (s.thumbShiftReg k rs rd) [(rd.toReg, o.res)] (s.cpsr.flagged o.res o.c s.cpsr.v) 1 0 :=
  s.computes_putLow_flagged rd _ _ _ 1 0

end

/-- Settles O51: the shifts of each form are one operation, of the kind of shift. -/
theorem thumbShift : Obligations.ThumbShift := by
  intro off rs rd s imm reg gives
  have himm k := s.computes_thumbShiftImm k rs rd off
  have hreg k := s.computes_thumbShiftReg k rs rd
  exact ⟨himm .lsl, himm .lsr, himm .asr, hreg .lsl, hreg .lsr, hreg .asr, hreg .ror⟩

/-! ## Additions, subtractions and comparisons -/

section
variable (s : State) (op : DpOp) (l r : Word)

/-- An operation with all four flags is the data-processing operation (R414 to R417, R420, R421, R427, R428, R431). -/
theorem State.computes_thumbArith (rd : LowReg) :
    s.Computes (s.thumbArith rd (dpAlu s.params.adcV op l r false s.cpsr))
      [(rd.toReg, dpResult op l r s.cpsr.c)] (dpFlags s.params.adcV op l r false s.cpsr) 0 0 := by
  rw [← dpAlu_res s.params.adcV op l r false, ← withFlags_dpAlu]
  exact s.computes_putLow rd _ 0 0 rfl rfl

/-- A comparison is the data-processing operation, without its result (R419, R430, R432, R433). -/
theorem State.computes_thumbCompare (sc : Bool) :
    s.Computes (s.thumbCompare (dpAlu s.params.adcV op l r sc s.cpsr)) []
      (dpFlags s.params.adcV op l r sc s.cpsr) 0 0 := by
  rw [← withFlags_dpAlu]
  exact s.computes_tuned _ 0 0 rfl

end

/-- Settles O52: the ALU output of each instruction is that of its data-processing operation. -/
theorem thumbArithmetic : Obligations.ThumbArithmetic := by
  intro rn rs rd off3 off8 s gives d x
  have arith op l r := s.computes_thumbArith op l r rd
  exact ⟨arith .add _ _, arith .sub _ _, arith .add _ _, arith .sub _ _, arith .add _ _, arith .sub _ _,
    arith .adc _ _, arith .sbc _ _, arith .sub _ _⟩

/-! ## Logic and MUL -/

theorem mul_eq_ofNat (x y : Word) : x * y = BitVec.ofNat 32 (x.toNat * y.toNat) := by
  rw [BitVec.ofNat_mul, BitVec.ofNat_toNat, BitVec.ofNat_toNat, BitVec.setWidth_eq, BitVec.setWidth_eq]

/-- MUL sets C to a free value and takes m cycles by Rd (R435). -/
theorem State.computes_thumbMul (s : State) (rs rd : LowReg) :
    s.Computes (s.thumbMul rs rd) [(rd.toReg, s.low rs * s.low rd)]
      (s.cpsr.flagged (s.low rs * s.low rd) ((Config.freeValue s.draws).getLsbD 0) s.cpsr.v)
      (mulCycles (s.low rd)) 1 := s.computes_putLow_flagged rd _ _ _ _ 1

/-- Settles O53: the logical results set N and Z, the comparisons are data-processing operations, TST with C as the
shifter's carry, and the product is that of the natural numbers modulo 2^32. -/
theorem thumbLogic : Obligations.ThumbLogic := by
  intro rs rd off8 s d x logic compares
  have compare op l r sc := s.computes_thumbCompare op l r sc
  have mul := s.computes_thumbMul rs rd
  rw [mul_eq_ofNat] at mul
  exact ⟨s.computes_thumbLogic rd _, s.computes_thumbLogic rd _, s.computes_thumbLogic rd _,
    s.computes_thumbLogic rd _, s.computes_thumbLogic rd _, s.computes_thumbLogic rd _, compare .cmp _ _ _,
    compare .cmp _ _ _, compare .cmn _ _ _, compare .tst _ _ _, mul⟩

/-! ## The hi registers (R438 to R441) -/

/-- No U-case of format 5 stops a lenient state where a register is high (R438). -/
theorem State.hiChecks_none {s : State} {h1 h2 : Bool} (hl : s.Lenient (h1 = true ∨ h2 = true)) (rs rd : LowReg) :
    firstStop s.params.unpred (s.hiChecks h1 h2 rs rd) = none := by
  refine hl.none (by simp [State.hiChecks]) fun hz hhigh => ?_
  have hu20 : (!h1 && !h2) = false := by
    rcases hhigh with rfl | rfl <;> simp
  simp [State.hiChecks, hu20, State.hazardCheck_holds hz]

/-- A destination other than R15 is written without flags, R15 branches (R439, R441). -/
theorem State.putHi_ends (s : State) (hd : RegNum) (res : Word) :
    (hd ≠ 15 → s.Computes (.next (s.putHi hd res)) [(hd, res)] s.cpsr 0 0) ∧
    (hd = 15 → s.Branches (.next (s.putHi hd res)) res [] s.cpsr 0 0) := by
  refine ⟨fun h => ?_, fun h => ?_⟩
  · rw [State.putHi, if_neg h]
    exact s.computes_write s.cpsr 0 0 hd res rfl rfl h
  · rw [State.putHi, if_pos h]
    exact s.branches_tuned s.cpsr 0 0 res

/-- Settles O54: past U20 and U27 ADD and MOV put their result, and CMP is the data-processing operation. -/
theorem thumbHiRegister : Obligations.ThumbHiRegister := by
  intro h1 h2 rs rd s hl hd hs puts
  have goesOn (r : Result State) : s.guarded (s.hiChecks h1 h2 rs rd) r = r :=
    State.guarded_of_none r (State.hiChecks_none hl rs rd)
  have hadd : exec (.tAddHi h1 h2 rs rd) s = .next (s.putHi hd (s.readReg hd + s.readReg hs)) := goesOn _
  have hmov : exec (.tMovHi h1 h2 rs rd) s = .next (s.putHi hd (s.readReg hs)) := goesOn _
  have hcmp : exec (.tCmpHi h1 h2 rs rd) s = s.thumbCompare (sub (s.readReg hd) (s.readReg hs)) := goesOn _
  simp only [puts, hadd, hmov, hcmp]
  exact ⟨s.putHi_ends hd _, s.putHi_ends hd _, s.computes_thumbCompare .cmp _ _ false⟩

/-! ## Addresses from PC and SP (R443 to R447) -/

/-- An immediate counts words (R163). -/
theorem setWidth_shiftLeft_two {w : Nat} (x : BitVec w) :
    (x.setWidth 32 <<< 2 : Word) = BitVec.ofNat 32 (4 * x.toNat) := by
  apply BitVec.eq_of_toNat_eq
  rw [BitVec.toNat_shiftLeft, BitVec.toNat_setWidth, BitVec.toNat_ofNat, Nat.shiftLeft_eq, Nat.mod_mul_mod,
    Nat.mul_comm]

theorem scaled8_eq (x : Byte) : scaled8 x = BitVec.ofNat 32 (4 * x.toNat) := setWidth_shiftLeft_two x

theorem scaled7_eq (x : BitVec 7) : scaled7 x = BitVec.ofNat 32 (4 * x.toNat) := setWidth_shiftLeft_two x

theorem State.computes_thumbAddPc (s : State) (rd : LowReg) (word8 : Byte) :
    s.Computes (s.thumbAddPc rd word8)
      [(rd.toReg, ((s.instrAddr + 4) &&& ~~~2) + BitVec.ofNat 32 (4 * word8.toNat))] s.cpsr 0 0 := by
  rw [← scaled8_eq]
  exact s.computes_putLow rd _ 0 0 rfl rfl

theorem State.computes_thumbAddSp {s : State} (hl : s.Lenient True) (rd : LowReg) (word8 : Byte) :
    s.Computes (s.thumbAddSp rd word8) [(rd.toReg, s.readReg 13 + BitVec.ofNat 32 (4 * word8.toNat))] s.cpsr 0 0 := by
  rw [State.thumbAddSp, State.guarded_of_none _ (State.hazardCheck_none hl _), ← scaled8_eq]
  exact s.computes_putLow rd _ 0 0 rfl rfl

theorem State.computes_thumbMoveSp {s : State} (hl : s.Lenient True) (sp : Word) :
    s.Computes (s.thumbMoveSp sp) [(13, sp)] s.cpsr 0 0 := by
  rw [State.thumbMoveSp, State.guarded_of_none _ (State.hazardCheck_none hl _)]
  exact s.computes_write s.cpsr 0 0 13 sp rfl rfl (by decide)

/-- Settles O55: each form writes one register, those that use SP past U27. -/
theorem thumbAddress : Obligations.ThumbAddress := by
  intro rd word8 word7 s gives imm8 imm7
  have h7 : scaled7 word7 = imm7 := scaled7_eq word7
  exact ⟨s.computes_thumbAddPc rd word8, fun hl => ⟨State.computes_thumbAddSp hl rd word8,
    h7 ▸ State.computes_thumbMoveSp hl _, h7 ▸ State.computes_thumbMoveSp hl _⟩⟩

end Sys2Proof.Machine

/-! # THUMB loads and stores (48_thumb_load_store.md) -/

namespace Sys2Proof.Machine

/-! ## Loaded values -/

/-- A value that fits a width is its low bytes. -/
theorem Width.low_of_lt {w : Width} {v : Word} (h : v.toNat < 2 ^ (8 * w.bytes)) : w.low v = v := by
  cases w with
  | word => rfl
  | byte | half =>
    apply BitVec.eq_of_toNat_eq
    rw [Width.low, BitVec.toNat_setWidth, BitVec.extractLsb'_toNat, Nat.shiftRight_zero]
    simp only [Width.bytes] at h
    omega

/-- A value read is the low bytes of its width (R81). -/
theorem State.low_memRead (s : State) (a : Word) (w : Width) : w.low (s.memRead a w) = s.memRead a w :=
  Width.low_of_lt (s.portRead_lt .data a w)

/-- LDRH takes the aligned halfword rotated where the address is odd (R467, U11). -/
theorem State.loadHalf_eq (s : State) (a : Word) : s.loadHalf a =
    if a.getLsbD 0 = true then (s.memRead (alignTo .half a) .half).rotateRight 8
    else ((s.memRead a .half).extractLsb' 0 16).setWidth 32 := by
  have hlow : ((s.memRead a .half).extractLsb' 0 16).setWidth 32 = s.memRead a .half := s.low_memRead a .half
  rw [State.loadHalf, hlow]

/-! ## Addresses -/

theorem State.spAddr_eq (s : State) (word8 : Byte) :
    s.spAddr word8 = s.readReg 13 + BitVec.ofNat 32 (4 * word8.toNat) := by
  rw [State.spAddr, scaled8_eq]

/-- An offset counts accesses of the width (R163). -/
theorem State.immAddr_eq (s : State) (rb : LowReg) (off : BitVec 5) (w : Width) :
    s.immAddr rb off w = s.low rb + BitVec.ofNat 32 (w.bytes * off.toNat) := by
  rw [State.immAddr, ← BitVec.ofNat_toNat, ← BitVec.ofNat_mul, Nat.mul_comm]

theorem getLsbD_zero_add_four (a : Word) : (a + 4).getLsbD 0 = a.getLsbD 0 := by
  simp only [BitVec.getLsbD, Nat.testBit_zero, BitVec.toNat_add, BitVec.ofNat_eq_ofNat, BitVec.toNat_ofNat,
    decide_eq_decide]
  omega

/-- Clearing bit 1 of an even address aligns it (R444, R460). -/
theorem clear_bit_one_of_even {a : Word} (h : a.getLsbD 0 = false) : a &&& ~~~2 = alignTo .word a := by
  apply BitVec.eq_of_getLsbD_eq
  intro k hk
  cases k with
  | zero => simp only [alignTo, BitVec.getLsbD_and, h, Bool.false_and]
  | succ k =>
    have hmask : ∀ j : Fin 31, (~~~2 : Word).getLsbD (j + 1) = (0xFFFFFFFC : Word).getLsbD (j + 1) := by decide
    simp only [alignTo, BitVec.getLsbD_and]
    exact congrArg (_ && ·) (hmask ⟨k, by omega⟩)

/-- A word-aligned address moved by words is aligned. -/
theorem alignTo_word_add (a : Word) (n : Nat) :
    alignTo .word (alignTo .word a + BitVec.ofNat 32 (4 * n)) = alignTo .word a + BitVec.ofNat 32 (4 * n) := by
  apply BitVec.eq_of_toNat_eq
  simp only [alignTo_toNat, BitVec.toNat_add, BitVec.toNat_ofNat, Width.bytes]
  omega

/-- An aligned word is not rotated (R88). -/
theorem rotateRight_of_aligned {a : Word} (h : alignTo .word a = a) (x : Word) :
    x.rotateRight (8 * (a.toNat % 4)) = x := by
  have h4 : a.toNat / 4 * 4 = a.toNat := (alignTo_toNat .word a).symm.trans (congrArg BitVec.toNat h)
  rw [show a.toNat % 4 = 0 by omega]
  exact rotateRight_zero x

/-! ## Loads past their U-cases -/

/-- A load whose U-cases `ks` do not stop it charges its access and one internal cycle and writes Rd. -/
theorem State.computes_thumbLoad {s : State} {ks : List Check} (h : firstStop s.params.unpred ks = none) (ea : Word)
    (w : Width) (rd : LowReg) (v : Word) :
    s.Computes (s.thumbLoad ks ea w rd v) [(rd.toReg, v)] s.cpsr (s.params.cost ea w .data .nonSeq + 1) 0 := by
  rw [State.thumbLoad, State.guarded_of_none _ h]
  exact s.computes_putLow rd v (s.params.cost ea w .data .nonSeq + 1) 0 rfl rfl

theorem State.computes_thumbLoadWord {s : State} {ks : List Check} (h : firstStop s.params.unpred ks = none)
    (ea : Word) (rd : LowReg) :
    s.Computes (s.thumbLoadWord ks ea rd)
      [(rd.toReg, (s.memRead (alignTo .word ea) .word).rotateRight (8 * (ea.toNat % 4)))] s.cpsr
      (s.params.cost (alignTo .word ea) .word .data .nonSeq + 1) 0 := by
  rw [← s.loadWordRotated_eq]
  exact State.computes_thumbLoad h _ _ rd _

theorem State.computes_thumbLoadByte (s : State) (ea : Word) (rd : LowReg) :
    s.Computes (s.thumbLoadByte ea rd) [(rd.toReg, ((s.memRead ea .byte).extractLsb' 0 8).setWidth 32)] s.cpsr
      (s.params.cost ea .byte .data .nonSeq + 1) 0 := by
  rw [show ((s.memRead ea .byte).extractLsb' 0 8).setWidth 32 = s.memRead ea .byte from s.low_memRead ea .byte]
  exact State.computes_thumbLoad rfl _ _ rd _

theorem State.computes_thumbLoadSignedByte (s : State) (ea : Word) (rd : LowReg) :
    s.Computes (s.thumbLoadSignedByte ea rd) [(rd.toReg, ((s.memRead ea .byte).extractLsb' 0 8).signExtend 32)]
      s.cpsr (s.params.cost ea .byte .data .nonSeq + 1) 0 := State.computes_thumbLoad rfl _ _ rd _

theorem State.computes_thumbLoadHalf {s : State} {ea : Word} (hl : s.Lenient (ea.getLsbD 0 = false)) (rd : LowReg) :
    s.Computes (s.thumbLoadHalf ea rd)
      [(rd.toReg, if ea.getLsbD 0 = true then (s.memRead (alignTo .half ea) .half).rotateRight 8
        else ((s.memRead ea .half).extractLsb' 0 16).setWidth 32)] s.cpsr
      (s.params.cost (alignTo .half ea) .half .data .nonSeq + 1) 0 := by
  rw [← s.loadHalf_eq]
  exact State.computes_thumbLoad (State.oddCheck_none hl) _ _ rd _

/-- LDSH presents its address as it is: a byte where the address is odd (R468). -/
theorem State.computes_thumbLoadSignedHalf {s : State} {ea : Word} (hl : s.Lenient (ea.getLsbD 0 = false))
    (rd : LowReg) :
    s.Computes (s.thumbLoadSignedHalf ea rd) [(rd.toReg, s.loadSignedHalf ea)] s.cpsr
      (s.params.cost (alignTo (signedHalfWidth ea) ea) (signedHalfWidth ea) .data .nonSeq + 1) 0 := by
  rw [alignTo_signedHalfWidth]
  exact State.computes_thumbLoad (State.oddCheck_none hl) _ _ rd _

/-- Settles O56: each load is the load of its width at its address; clearing bit 1 of an even A + 4 aligns the address
of the PC-relative one, which is then not rotated. -/
theorem thumbLoad : Obligations.ThumbLoad := by
  intro ro rb rd off word8 s gives word byte half oddHalf reg imm pcAddr spAddr
  have hpc : s.thumbPcBase + scaled8 word8 = pcAddr := congrArg (s.thumbPcBase + ·) (scaled8_eq word8)
  have hsp : s.spAddr word8 = spAddr := s.spAddr_eq word8
  have himm (w : Width) : s.immAddr rb off w = imm w.bytes := s.immAddr_eq rb off w
  have hword (ea : Word) := State.computes_thumbLoadWord (s := s) (ks := []) rfl ea rd
  refine ⟨?_, fun heven => ?_, hword reg, ?_, fun hl => ?_,
    s.computes_thumbLoadByte reg rd, ?_, s.computes_thumbLoadSignedByte reg rd,
    fun hl => ⟨State.computes_thumbLoadHalf hl rd, State.computes_thumbLoadSignedHalf hl rd⟩, fun hl => ?_⟩
  · exact hpc ▸ hword _
  · have hbase : (s.instrAddr + 4).getLsbD 0 = false := (getLsbD_zero_add_four _).trans heven
    have haligned : alignTo .word pcAddr = pcAddr := by
      simp only [pcAddr, clear_bit_one_of_even hbase]
      exact alignTo_word_add _ _
    refine ⟨?_, haligned⟩
    simp only [word, rotateRight_of_aligned haligned, haligned]
  · exact himm .word ▸ hword _
  · exact hsp ▸ State.computes_thumbLoadWord (State.hazardCheck_none hl _) _ rd
  · exact himm .byte ▸ s.computes_thumbLoadByte _ rd
  · exact himm .half ▸ State.computes_thumbLoadHalf (himm .half ▸ hl) rd

/-! ## Stores past their U-cases -/

theorem misaligned4_of_aligned {a : Word} (h : alignTo .word a = a) : misaligned4 a = false := by
  rw [← h]
  simp [misaligned4, alignTo]

theorem getLsbD_zero_of_aligned {a : Word} (h : alignTo .half a = a) : a.getLsbD 0 = false := by
  rw [← h]
  simp [alignTo]

/-- A store whose own U-cases `ks` arise at no aligned address ends as every store without write-back. -/
theorem State.stores_thumbStore {s : State} {ea : Word} {w : Width} {ks : List Check}
    (hl : s.Lenient (alignTo w ea = ea ∧ s.hitsPrefetch (alignTo w ea) w = false)) (hb : ∀ k ∈ ks, k.both = false)
    (hks : s.userBankHazard = false → alignTo w ea = ea → ∀ k ∈ ks, k.holds = false) (v : Word) :
    s.Stores (s.thumbStore ks (alignTo w ea) w v) (alignTo w ea) w v [] := by
  have hown : firstStop s.params.unpred ks = none :=
    hl.none (fun k hk h => by simp [hb k hk] at h) fun hz ⟨ha, _⟩ => hks hz ha
  have hprefetch : firstStop s.params.unpred [s.prefetchCheck (alignTo w ea) w] = none :=
    hl.none (by simp) fun _ ⟨_, hp⟩ => by simp [hp]
  rw [State.thumbStore, State.guarded_of_none _ (firstStop_append_eq_none hown hprefetch)]
  exact s.stores_storeTail (alignTo w ea) w v 0 ⟨ea, ea, false⟩ (by simp)

theorem State.stores_thumbStoreWord {s : State} {ea : Word} {ks : List Check} (hb : ∀ k ∈ ks, k.both = false)
    (hks : s.userBankHazard = false → ∀ k ∈ ks, k.holds = false) (rd : LowReg)
    (hl : s.Lenient (alignTo .word ea = ea ∧ s.hitsPrefetch (alignTo .word ea) .word = false)) :
    s.Stores (s.thumbStoreWord ks ea rd) (alignTo .word ea) .word (s.low rd) [] :=
  State.stores_thumbStore hl (List.forall_mem_cons.2 ⟨rfl, hb⟩)
    (fun hz ha => List.forall_mem_cons.2 ⟨misaligned4_of_aligned ha, hks hz⟩) _

theorem State.stores_thumbStoreHalf {s : State} {ea : Word} (rd : LowReg)
    (hl : s.Lenient (alignTo .half ea = ea ∧ s.hitsPrefetch (alignTo .half ea) .half = false)) :
    s.Stores (s.thumbStoreHalf ea rd) (alignTo .half ea) .half (s.low rd) [] :=
  State.stores_thumbStore hl (by simp) (fun _ ha => by simpa using getLsbD_zero_of_aligned ha) _

theorem State.stores_thumbStoreByte {s : State} {ea : Word} (rd : LowReg)
    (hl : s.Lenient (alignTo .byte ea = ea ∧ s.hitsPrefetch (alignTo .byte ea) .byte = false)) :
    s.Stores (s.thumbStoreByte ea rd) ea .byte (s.low rd) [] :=
  State.stores_thumbStore hl (by simp) (by simp) _

/-- Settles O57: each store is the store of its width at its address. -/
theorem thumbStore : Obligations.ThumbStore := by
  intro ro rb rd off word8 s puts reg imm
  have hsp := s.spAddr_eq word8
  have himm (w : Width) : s.immAddr rb off w = imm w.bytes := s.immAddr_eq rb off w
  refine ⟨State.stores_thumbStoreWord (by simp) (by simp) rd, State.stores_thumbStoreHalf rd,
    State.stores_thumbStoreByte rd, ?_, ?_, ?_, ?_⟩
  · exact himm .word ▸ State.stores_thumbStoreWord (by simp) (by simp) rd
  · exact himm .half ▸ State.stores_thumbStoreHalf rd
  · exact himm .byte ▸ State.stores_thumbStoreByte rd
  · exact hsp ▸ State.stores_thumbStoreWord (by simp) (fun hz => by simp [State.hazardCheck_holds hz]) rd

end Sys2Proof.Machine

/-! # THUMB block transfers (48_thumb_load_store.md) -/

namespace Sys2Proof.Machine

/-! ## Lists -/

/-- R15 is no register of PUSH (R477). -/
theorem fifteen_not_mem_pushList (r : Bool) (rl : Byte) : 15 ∉ listRegs (pushList r rl) := by
  rw [mem_listRegs, pushList]
  simp only [BitVec.getLsbD_append]
  simp

/-- R15 is no register of a list of low registers (R479). -/
theorem fifteen_not_mem_byte (rl : Byte) : 15 ∉ listRegs (rl.setWidth 16) := by
  simp [mem_listRegs]

theorem blockSpan_of_ne {rl : BitVec 16} (h : rl ≠ 0) : blockSpan rl = BitVec.ofNat 32 (4 * (listRegs rl).length) :=
  if_neg h

/-! ## Past the U-cases -/

/-- U28 does not arise for a list that is not empty, U13 not in a lenient state (R481). -/
theorem State.thumbBlockChecks_none {s : State} {rb : RegNum} {rl : BitVec 16} (h0 : rl ≠ 0)
    (hl : s.Lenient (misaligned4 (s.readReg rb) = false)) :
    firstStop s.params.unpred (s.thumbBlockChecks rb rl) = none := by
  have h0 : rl ≠ 0#16 := h0
  exact hl.none (by simp [State.thumbBlockChecks, h0]) fun _ ha => by simp [State.thumbBlockChecks, h0, ha]

theorem baseInList_none {s : State} {rb : RegNum} {rl : BitVec 16} (hl : s.Lenient (rb ∉ listRegs rl)) :
    firstStop s.params.unpred [baseInList true rb rl] = none :=
  hl.none (by simp [baseInList]) fun _ h => by simpa [baseInList, mem_listRegs] using h

/-! ## PUSH and STMIA (R477, R479) -/

/-- What a block store of THUMB leaves: its registers `rs` and the `span` it moves the base by are those of its list. -/
theorem State.thumbStm_stores {s : State} {m : BlockMode} {rb : RegNum} {rl : BitVec 16} {rs : List RegNum}
    {span : Word} (hrs : blockRegs rl = rs) (hspan : blockSpan rl = span) (hb : rb ≠ 15) (h15 : 15 ∉ rs)
    (h0 : rl ≠ 0) :
    let start := m.start (s.readReg rb) span
    let newBase := m.newBase (s.readReg rb) span
    s.Lenient (misaligned4 (s.readReg rb) = false ∧
      ∀ k, k < rs.length → s.hitsPrefetch (blockAddr start k) .word = false) →
    ∃ t, s.thumbStm m rb rl = .next t ∧
      s.BlockStored t start rs (fun k r => if r = rb ∧ k ≠ 0 then newBase else s.readReg r) ∧
      t.readReg rb = newBase ∧ t.cpsr = s.cpsr ∧ s.Frame t [rb] ∧
      s.Advanced t .nonSeq (s.blockCost start .nonSeq rs.length) ∧ t.draws = s.draws := by
  subst hrs hspan
  intro start newBase hl
  have hgo : s.thumbStm m rb rl = .next (s.blockStore s.bank m true rb rl) :=
    State.guarded_of_none _ (firstStop_append_eq_none (State.thumbBlockChecks_none h0 (hl.imp And.left))
      (State.blockStoreChecks_none _ (hl.imp And.right)))
  refine ⟨_, hgo, s.blockStore_stored _ m true rb rl _ fun k r hk => ?_, ?_, by simp,
    s.blockStore_frame _ m true rb rl _ (by simp), s.blockStore_advanced .., by simp⟩
  · have hr : r ≠ 15 := fun e => h15 (e ▸ List.mem_of_getElem? hk)
    rw [State.blockBase_blockValue s m true rl r hb, State.blockValue, if_neg hr, if_neg hr]
    by_cases hk0 : k = 0
    · simp only [hk0, ne_eq, not_true_eq_false, and_false, if_false, if_true]
      rfl
    · simp only [hk0, ne_eq, not_false_eq_true, and_true, true_and, if_false]
      rfl
  · have hbank : (s.blockStore s.bank m true rb rl).bank = s.bank := State.bank_eq (by simp)
    rw [State.readReg, hbank]
    exact s.blockStore_base _ m rb rl hb

/-- Settles O58: both are one block store, of a list that does not name R15. -/
theorem thumbBlockStore : Obligations.ThumbBlockStore := by
  intro s puts
  refine ⟨fun r rl h0 => ?_, fun rb rl h0 => ?_⟩
  · exact State.thumbStm_stores (blockRegs_of_ne h0) (blockSpan_of_ne h0) (by decide)
      (fifteen_not_mem_pushList r rl) h0
  · exact State.thumbStm_stores (blockRegs_of_ne h0) (blockSpan_of_ne h0) (LowReg.toReg_ne_fifteen rb)
      (fifteen_not_mem_byte rl) h0

/-! ## POP and LDMIA (R478, R480) -/

/-- How a block load of THUMB ends: with a branch to the last word, or with the next fetch. -/
def State.loadEnd (s : State) (rb : RegNum) (rl : BitVec 16) (pcToo : Bool) : State :=
  if pcToo then (s.blockLoad s.bank .ia true rb rl).branchTo (s.blockPc rl (s.blockStart .ia rb rl))
  else (s.blockLoad s.bank .ia true rb rl).fetchNext .seq

theorem State.pop_of_lenient {s : State} {r : Bool} {rl : Byte} (h0 : popList r rl ≠ 0)
    (hl : s.Lenient (misaligned4 (s.readReg 13) = false)) :
    s.pop r rl = .next (s.loadEnd 13 (popList r rl) r) :=
  State.guarded_of_none _ (firstStop_append_eq_none (State.thumbBlockChecks_none h0 hl)
    (State.hazardCheck_none (hl.imp fun _ => trivial) _))

theorem State.thumbLdm_of_lenient {s : State} {rb : LowReg} {rl : Byte} (h0 : (rl.setWidth 16 : BitVec 16) ≠ 0)
    (hl : s.Lenient (misaligned4 (s.readReg rb.toReg) = false ∧ rb.toReg ∉ listRegs (rl.setWidth 16))) :
    s.thumbLdm rb rl = .next (s.loadEnd rb.toReg (rl.setWidth 16) false) :=
  State.guarded_of_none _ (firstStop_append_eq_none (State.thumbBlockChecks_none h0 (hl.imp And.left))
    (baseInList_none (hl.imp And.right)))

/-- What a block load of THUMB leaves: its registers `rs` and the `span` it moves the base by are those of its list. -/
theorem State.loadEnd_loads (s : State) {rb : RegNum} {rl : BitVec 16} {rs : List RegNum} {span : Word}
    (hrs : blockRegs rl = rs) (hspan : blockSpan rl = span) (pcToo : Bool) (hb : rb ≠ 15) :
    let start := s.readReg rb
    let t := s.loadEnd rb rl pcToo
    s.BlockLoaded t s.bank start rs ∧ s.BaseWritten t true rb rs (start + span) ∧
    t.cpsr = s.cpsr ∧ s.Frame t (rb :: rs) ∧ s.MemKept t ∧ t.draws = s.draws ∧
    (pcToo = false → s.Advanced t .seq (s.blockCost start .nonSeq rs.length + 1)) ∧
    (pcToo = true → s.Branched t (s.memRead (blockAddr start (rs.length - 1)) .word)
      (s.blockCost start .nonSeq rs.length + 1)) := by
  subst hrs hspan
  intro start t
  have c := s.blockLoad_core s.bank .ia true rb rl
  have leaves := State.blockLoad_leaves (s := s) (t := t) (m := .ia) (w := true) (rl := rl) hb
  cases pcToo with
  | false =>
    obtain ⟨hloaded, hbase, hframe, hmem⟩ := leaves rfl rfl rfl rfl rfl rfl rfl
    exact ⟨hloaded, hbase, c.cpsr, hframe, hmem, c.draws, fun _ => s.blockLoad_advanced .., by simp⟩
  | true =>
    obtain ⟨hloaded, hbase, hframe, hmem⟩ := leaves rfl rfl rfl rfl rfl rfl rfl
    exact ⟨hloaded, hbase, c.cpsr, hframe, hmem, c.draws, by simp, fun _ => s.blockLoad_branched ..⟩

/-- Settles O59: both are one block load, which POP with R = 1 ends with the branch. -/
theorem thumbBlockLoad : Obligations.ThumbBlockLoad := by
  intro s takes
  refine ⟨fun r rl h0 hl => ?_, fun rb rl h0 hl => ?_⟩
  · exact ⟨_, State.pop_of_lenient h0 (hl.imp And.left),
      s.loadEnd_loads (blockRegs_of_ne h0) (blockSpan_of_ne h0) r (by decide)⟩
  · exact ⟨_, State.thumbLdm_of_lenient h0 hl,
      s.loadEnd_loads (blockRegs_of_ne h0) (blockSpan_of_ne h0) false (LowReg.toReg_ne_fifteen rb)⟩

end Sys2Proof.Machine

/-! # THUMB branches (49_thumb_branch.md) -/

namespace Sys2Proof.Machine

/-! ## Offsets (R156, R158, R163) -/

theorem branchOffset8_eq (off : Byte) : branchOffset8 off = BitVec.ofInt 32 (2 * off.toInt) :=
  congrArg (BitVec.ofInt 32) BitVec.toInt_append_zero

theorem branchOffset11_eq (off : BitVec 11) : branchOffset11 off = BitVec.ofInt 32 (2 * off.toInt) :=
  congrArg (BitVec.ofInt 32) BitVec.toInt_append_zero

theorem branchOffsetHigh_eq (off : BitVec 11) : branchOffsetHigh off = BitVec.ofInt 32 (2 ^ 12 * off.toInt) :=
  congrArg (BitVec.ofInt 32) BitVec.toInt_append_zero

theorem branchOffsetLow_eq (off : BitVec 11) : branchOffsetLow off = BitVec.ofNat 32 (2 * off.toNat) := by
  have h : (off ++ 0b0#1).toNat = 2 * off.toNat := by
    rw [BitVec.toNat_append, BitVec.toNat_ofNat, Nat.zero_mod, Nat.or_zero, Nat.shiftLeft_eq, Nat.mul_comm]
  rw [branchOffsetLow, ← BitVec.ofNat_toNat, h]

/-! ## Branches (R500, R502, R504, R505) -/

section
variable {s : State}

theorem State.branches_thumbBranchCond {c : Cond} (h : c.passes s.cpsr = true) (off : Byte) :
    s.Branches (s.thumbBranchCond c off) (s.instrAddr + 4 + BitVec.ofInt 32 (2 * off.toInt)) [] s.cpsr 0 0 := by
  rw [State.thumbBranchCond, if_pos h, branchOffset8_eq]
  exact s.branches_tuned s.cpsr 0 0 _

theorem State.computes_thumbBranchCond {c : Cond} (h : c.passes s.cpsr = false) (off : Byte) :
    s.Computes (s.thumbBranchCond c off) [] s.cpsr 0 0 := by
  rw [State.thumbBranchCond, if_neg (by simp [h])]
  exact s.computes_tuned s.cpsr 0 0 rfl

theorem State.branches_thumbBranch (off : BitVec 11) :
    s.Branches (s.thumbBranch off) (s.instrAddr + 4 + BitVec.ofInt 32 (2 * off.toInt)) [] s.cpsr 0 0 := by
  rw [State.thumbBranch, branchOffset11_eq]
  exact s.branches_tuned s.cpsr 0 0 _

theorem State.computes_thumbBlHigh (hl : s.Lenient True) (off : BitVec 11) :
    s.Computes (s.thumbBlHigh off) [(14, s.instrAddr + 4 + BitVec.ofInt 32 (2 ^ 12 * off.toInt))] s.cpsr 0 0 := by
  rw [State.thumbBlHigh, State.guarded_of_none _ (State.hazardCheck_none hl _), branchOffsetHigh_eq]
  exact s.computes_write s.cpsr 0 0 14 _ rfl rfl (by decide)

theorem State.branches_thumbBlLow (hl : s.Lenient True) (off : BitVec 11) :
    s.Branches (s.thumbBlLow off) (s.readReg 14 + BitVec.ofNat 32 (2 * off.toNat)) [(14, (s.instrAddr + 2) ||| 1)]
      s.cpsr 0 0 := by
  rw [State.thumbBlLow, State.guarded_of_none _ (State.hazardCheck_none hl _), branchOffsetLow_eq]
  exact s.branches_link _ _

end

/-- Settles O60: each instruction is its shared operation, the halves of BL past U27. -/
theorem thumbBranches : Obligations.ThumbBranches := by
  intro s
  refine ⟨fun c off i hi => ?_, fun off => ⟨s.branches_thumbBranch off, fun hl =>
    ⟨State.computes_thumbBlHigh hl off, State.branches_thumbBlLow hl off⟩⟩⟩
  rw [exec_thumbBranch hi]
  exact ⟨fun h => State.branches_thumbBranchCond h off, fun h => State.computes_thumbBranchCond h off⟩

end Sys2Proof.Machine

/-! # Exceptions: what leaves User mode, and what the host raises (60_exceptions.md) -/

namespace Sys2Proof.Machine

/-! ## User mode (R541, R542) -/

/-- A state is in User mode with what no step in User mode changes as it is in `s` (R541, R542). -/
def State.UserKept (s t : State) : Prop :=
  t.cpsr.m = 0x10 ∧ t.cpsr.i = s.cpsr.i ∧ t.cpsr.f = s.cpsr.f ∧ t.spsrs = s.spsrs ∧
    ∀ p : PhysReg, (∀ k, p ≠ .usr k) → t.regs.get p = s.regs.get p

/-- A state after an instruction's exception entry: in the mode of its kind, I set, T clear, the CPSR of `s` saved, at
the vector (R530). -/
def State.TrapEntered (s t : State) : Prop :=
  ∃ k : ExceptionKind, (k = .swi ∨ k = .undefined) ∧ t.cpsr.m = k.mode.bits ∧ t.cpsr.i = true ∧
    t.cpsr.t = false ∧ t.spsrs.get k.mode.bank = s.cpsr ∧
    t.instrAddr = alignTo .word (s.params.exceptionBase + k.offset)

/-- After an entry the next instruction is the one at the vector, in ARM state (R189, R530). -/
theorem State.enterException_instrAddr (s : State) (k : ExceptionKind) (lr : Word) :
    (s.enterException k lr).instrAddr = alignTo .word (s.vector k) := by
  have hw : (s.enterMode k lr).opWidth = .word := by simp [State.opWidth]
  rw [State.enterException, State.branchTo_instrAddr, hw]

theorem State.trapEntered_enterException {s u : State} {k : ExceptionKind} (hk : k = .swi ∨ k = .undefined)
    (lr : Word) (hc : u.cpsr = s.cpsr) (hp : u.params = s.params) : s.TrapEntered (u.enterException k lr) := by
  have hreset : k ≠ .reset := by rcases hk with rfl | rfl <;> decide
  have hentered := u.entered_enterException k lr
  rw [if_neg hreset, hc] at hentered
  have hvector : u.vector k = s.params.exceptionBase + k.offset := congrArg (·.exceptionBase + k.offset) hp
  have hcpsr := hentered.cpsr
  exact ⟨k, hk, by rw [hcpsr], by rw [hcpsr]; rfl, by rw [hcpsr], hentered.saved,
    hvector ▸ u.enterException_instrAddr k lr⟩

/-- Under `fault` and without a hook every end of an instruction in User mode stays in it or is an entry. -/
theorem State.Ends.user {s t : State} (h : s.Ends t) (hp : s.params.unpred = .fault) (hh : s.hook = none)
    (hm : s.cpsr.m = 0x10) : s.UserKept t ∨ s.TrapEntered t := by
  cases h with
  | fetch u q b hu _ => exact .inl (hu.user hh hp hm)
  | branch u x hu => exact .inl (hu.user hh hp hm)
  | enter u k lr hu hk hc => exact .inr (State.trapEntered_enterException hk lr (hc hh) hu.params)

/-- Settles O14: the start and the end of a step change nothing it speaks of, and its instruction ends in one of the
three ways. -/
theorem userModeLeaves : Obligations.UserModeLeaves := by
  intro s t hp hh hm h
  obtain ⟨-, u, hu, rfl⟩ := step_next h
  exact (exec_ends _ _ u hu).user hp hh hm

/-! ## Exceptions the host raises (R525, R531, R532) -/

theorem State.handleException_of_record {s : State} (h : s.faultRecord ≠ none) (k : ExceptionKind) :
    s.handleException k = (false, s) := by
  obtain ⟨f, hf⟩ := Option.ne_none_iff_exists'.1 h
  simp [State.handleException, hf]

theorem State.handleException_of_masked {s : State} {k : ExceptionKind} (h : k.masked s.cpsr = true) :
    s.handleException k = (false, s) := by
  unfold State.handleException
  split <;> simp [h]

theorem State.handleException_of_noHook {s : State} {k : ExceptionKind} (hf : s.faultRecord = none)
    (hk : k.masked s.cpsr = false) (hh : s.hook = none) :
    s.handleException k = (true, (s.afterDraws (if k = .reset then 1 else 0)).enterBetween k (s.hostReturnAddr k)) := by
  simp [State.handleException, hf, hk, hh]

/-- IRQ is masked by I, FIQ by F (R531). -/
theorem ExceptionKind.masked_iff (k : ExceptionKind) (p : Psr) :
    k.masked p = true ↔ (k = .irq ∧ p.i = true) ∨ (k = .fiq ∧ p.f = true) := by
  cases k <;> simp [ExceptionKind.masked]

/-- What an entry between steps leaves, but for the pipeline (R530). -/
theorem State.entered_enterBetween (s : State) (k : ExceptionKind) (lr : Word) :
    s.Entered (s.enterBetween k lr) k lr (if k = .reset then Psr.ofWord s.drawn else s.cpsr) :=
  (s.entered_enterMode k lr).congr (u := s.enterBetween k lr) rfl rfl rfl rfl rfl rfl rfl

/-- Draws before an entry change nothing it speaks of (R525). -/
theorem State.Entered.of_afterDraws {s t : State} {n : Nat} {k : ExceptionKind} {lr : Word} {saved : Psr}
    (h : (s.afterDraws n).Entered t k lr saved) : s.Entered t k lr saved :=
  ⟨h.link, h.regs, h.saved, h.spsrs, h.cpsr, h.mem, h.params, h.hook, h.record⟩

section
variable {s t : State} {k : ExceptionKind} {lr : Word} {saved : Psr} (h : s.Entered t k lr saved)
include h

/-- After an entry the current bank is that of the entered mode. -/
theorem State.Entered.bank : t.bank = k.mode.bank := by
  rw [State.bank, Psr.mode, h.cpsr]
  simp only [Mode.ofBits_bits]

/-- After an entry R14 is the return address (R530). -/
theorem State.Entered.readReg_link : t.readReg 14 = lr := by
  obtain ⟨p, hp⟩ := Bank.reg_isSome k.mode.bank (r := 14) (by decide)
  rw [State.readReg, h.bank, State.readBank, hp]
  exact h.link p hp

theorem State.Entered.savedPsr : t.spsrs.get t.bank = saved := by
  rw [h.bank, h.saved]

end

/-- The pipeline after an entry between steps: both latches from the vector, the refill charged to the total alone
(R189, R530, R586). -/
theorem State.enterBetween_pipeline (s : State) (k : ExceptionKind) (lr : Word) :
    let t := s.enterBetween k lr
    t.instrAddr = alignTo .word (s.vector k) ∧ t.decoded = t.portRead .code t.instrAddr .word ∧
    t.fetched = t.portRead .code (t.instrAddr + 4) .word ∧ t.cycles = s.cycles ∧
    t.totalCycles = s.totalCycles + s.params.cost t.instrAddr .word .code .nonSeq +
      s.params.cost (t.instrAddr + 4) .word .code .seq := by
  intro t
  obtain ⟨hd, hf, -, ha, ht⟩ :=
    State.setPc_arm (s := s.enterMode k lr) (by rw [State.enterMode_cpsr]) (s.vector k)
  have ha : t.instrAddr = alignTo .word (s.vector k) := ha
  rw [State.enterMode_params, State.enterMode_totalCycles, ← Nat.add_assoc] at ht
  rw [ha]
  exact ⟨rfl, hd, hf, s.enterMode_cycles k lr, ht⟩

/-- Settles O47: masked or stopped it answers false; else the entry, with the row of its kind read off the table. -/
theorem hostException : Obligations.HostException := by
  intro k s
  constructor
  · intro h
    rcases h with h | h
    · exact State.handleException_of_record h k
    · exact State.handleException_of_masked ((k.masked_iff _).2 h)
  · intro hf hirq hfiq hh nx lr saved row
    have hmask : k.masked s.cpsr = false :=
      Bool.eq_false_iff.2 fun h => ((k.masked_iff _).1 h).elim hirq hfiq
    have hlr : s.hostReturnAddr k = lr := by cases k <;> rfl
    have hoffset : k.offset = row.2.2 := by cases k <;> rfl
    let u := s.afterDraws (if k = .reset then 1 else 0)
    have hsaved : (if k = .reset then Psr.ofWord u.drawn else u.cpsr) = saved := by cases k <;> rfl
    have hentered : u.Entered (u.enterBetween k lr) k lr saved := hsaved ▸ u.entered_enterBetween k lr
    obtain ⟨ha, hd, hfetched, hcycles, htotal⟩ := u.enterBetween_pipeline k lr
    refine ⟨_, hlr ▸ State.handleException_of_noHook hf hmask hh, hentered.of_afterDraws, hentered.readReg_link,
      hentered.savedPsr, ?_, ?_, hd, hfetched, hcycles, htotal⟩
    · rw [hentered.cpsr]
      cases k <;> rfl
    · rw [ha, ← hoffset]
      rfl

end Sys2Proof.Machine
